-- ==== Sys2Proof/Word.lean ====
section
/-! DEFINITION. Word.lean: the widths the spec fixes (00_scope.md R15, 10_state.md R27, R31). -/

namespace Sys2Proof

/-- A 32-bit unsigned quantity: counts, cursors, buffer addresses, rates, port registers (R15, R27). -/
abbrev Word := BitVec 32

/-- A byte of buffer memory or of the wire (R80). -/
abbrev Byte := BitVec 8

/-- The instance index, the four bits INST of a command word (R100). -/
abbrev BusId := Fin 16

/-- A DMA channel number, 8 bits (R7, R31). -/
abbrev Chan := Fin 256

end Sys2Proof
end

