-- ==== Sys2Proof/Config.lean ====
section
/-! DEFINITION. Config.lean: the parameters of 00_scope.md R7, the draws an environment makes (60_exceptions.md R471),
and the free values: constants without a body, of which nothing can be proved. -/

namespace Sys2Proof

/-- The acknowledge bit after a byte (R19). -/
inductive Ack where
  | ack
  | nack
  deriving DecidableEq, Repr, Inhabited

/-- `env.tx`: the answer to a byte the owner of the bus transmits (40_primitives.md R162). -/
inductive TxDraw where
  | acked
  | nacked
  | lost
  deriving DecidableEq, Repr, Inhabited

/-- What a remote master does while nothing of this core is pending (40_primitives.md R167, R168, R170, R173).
`address b`: an address of one byte after a start or a repeated start. `address10 b1 b2`: one of two bytes, prefix and low byte;
of these a core in 7-bit mode goes by the first (R115). -/
inductive Remote where
  | quiet
  | address (b : Byte)
  | address10 (b1 b2 : Byte)
  | write (b : Byte)
  | stop
  | foreignStop
  deriving DecidableEq, Repr, Inhabited

/-- Everything one bus step may draw (R471 (2) to (5)); a step uses the part its rule names. -/
structure BusDraw where
  tx : TxDraw := .acked
  rxbyte : Byte := 0
  ack : Ack := .ack
  remote : Remote := .quiet
  deriving DecidableEq, Repr, Inhabited

/-- `env.step` of a poll (41_sequencer.md R190), with the draw of the bus step when it is taken. -/
inductive PollDraw where
  | withheld
  | taken (d : BusDraw)
  deriving DecidableEq, Repr, Inhabited

/-- A buffer lent from inside a callback. -/
structure Lend where
  buf : Word
  len : Word
  deriving DecidableEq, Repr, Inhabited

/-- `env.cb` (60_exceptions.md R440): nothing, one S_SET_TX_BUF, one S_SET_RX_BUF, or both, in either order. -/
inductive CbDraw where
  | nothing
  | setTx (t : Lend)
  | setRx (r : Lend)
  | setTxRx (t r : Lend)
  | setRxTx (r t : Lend)
  deriving DecidableEq, Repr, Inhabited

/-- The parameters of R7, with `E_BASE` of R28 and U13 (DESIGN CHOICE, log entry 3). The four ceilings `SPIN_START`,
`SPIN_READY`, `SPIN_BYTE` and `SPIN_STOP` enter no result (R16, R190, U12): no rule reads them. -/
structure Params where
  eBase : Word
  nInst : Nat
  nDma : Nat
  clkIn : Vector Word 16
  stepMin : BitVec 4
  stepMax : BitVec 4
  sampleMin : Byte
  sampleMax : Byte
  lenMax : Word
  slaveFill : Byte
  spinStart : Nat
  spinReady : Nat
  spinByte : Nat
  spinStop : Nat
  deriving DecidableEq, Repr

/-- The bounds R7 and R28 put on the parameters. -/
def Params.wf (p : Params) : Bool :=
  1 ≤ p.nInst && p.nInst ≤ 16 && p.stepMin ≤ p.stepMax && p.sampleMin ≤ p.sampleMax &&
  1 ≤ p.spinStart && 1 ≤ p.spinReady && 1 ≤ p.spinByte && 1 ≤ p.spinStop && p.eBase.extractLsb' 0 2 == 0

namespace Config

/-- `CLK_IN[i]`, which the clock-management collaborator answers (R7: OPEN, no default). FREE VALUE. -/
opaque clkIn : Fin 16 → Word

/-- `N_DMA` (R7: OPEN, no default). FREE VALUE. -/
opaque nDma : Nat

/-- What each spin ceiling exceeds 1 by (R7: OPEN, at least 1). FREE VALUES. -/
opaque spinStart : Nat

opaque spinReady : Nat

opaque spinByte : Nat

opaque spinStop : Nat

/-- The draw of a poll when `env.polls` is used up. FREE VALUE (DESIGN CHOICE, log entry 2). -/
opaque freePoll : Nat → PollDraw

/-- The draw of a callback when `env.cbs` is used up. FREE VALUE (DESIGN CHOICE, log entry 2). -/
opaque freeCb : Nat → CbDraw

/-- What a read of the data register that is turned away, or of a core whose clock is off, delivers (DESIGN CHOICE, log
entry 17), and what a resume leaves in OUT0 (DEDUCED, log entry 30). FREE VALUE. -/
opaque freeRead : Nat → Word

/-- The address used when a count is positive and its buffer unset, which R32 (a) excludes. FREE VALUE (DESIGN CHOICE, log entry 18). -/
opaque unsetBuf : Word

end Config

/-- The defaults of R7; `E_BASE`, which has none, is 0 (DESIGN CHOICE, log entry 3). -/
def Params.default : Params where
  eBase := 0
  nInst := 2
  nDma := Config.nDma
  clkIn := Vector.ofFn Config.clkIn
  stepMin := 0
  stepMax := 15
  sampleMin := 0
  sampleMax := 255
  lenMax := 0xFFFFFFFF
  slaveFill := 0xFF
  spinStart := Config.spinStart + 1
  spinReady := Config.spinReady + 1
  spinByte := Config.spinByte + 1
  spinStop := Config.spinStop + 1

end Sys2Proof
end

