-- ==== Sys2Proof/Syntax.lean ====
section
/-! DEFINITION. Syntax.lean: the 45 operations of the opcode table (30_encoding.md R101), one constructor a row
(the pseudo-operations of R131 have none, log entry 25).
`i` is INST, the other fields are the row's IMM operands; ARG0 to ARG2 are registers of the port (R27). -/

namespace Sys2Proof

/-- Transport codes of R126. -/
inductive Transport where
  | int
  | dma
  deriving DecidableEq, Repr

/-- The sticky flags P_CLEAR_FLAG accepts (R124). -/
inductive Sticky where
  | startf
  | bnd
  | rxnack
  | arblost
  | addrmatch
  | stopf
  deriving DecidableEq, Repr

/-- The interrupt sources P_INT_ENABLE and P_INT_DISABLE accept (R124). -/
inductive IntSrc where
  | bndie
  | nackie
  | arbie
  | addrie
  | stopie
  deriving DecidableEq, Repr

/-- Direction codes of R126: the remote end of an address byte. -/
inductive WireDir where
  | write
  | read
  deriving DecidableEq, Repr

/-- The core's direction flag and a slave's direction (R21, R33). -/
inductive Dir where
  | rx
  | tx
  deriving DecidableEq, Repr

inductive Instr where
  | initMaster (i : BusId) (transport : Transport) (addr10 cb : Bool) (ch : Chan)
  | initSlave (i : BusId) (transport : Transport) (addr10 cb listening wakeup : Bool) (ch : Chan)
  | deinit (i : BusId)
  | setRate (i : BusId)
  | getRate (i : BusId)
  | setTargetAddr (i : BusId) (addr10 : Bool)
  | setOwnAddr (i : BusId) (addr10 : Bool)
  | setCallback (i : BusId) (install : Bool)
  | irqEntry (i : BusId)
  | mSend (i : BusId) (stop : Bool)
  | mRecv (i : BusId) (stop : Bool)
  | mSendBlk (i : BusId) (stop : Bool)
  | mRecvBlk (i : BusId) (stop : Bool)
  | mAbort (i : BusId)
  | mGetStatus (i : BusId)
  | sSetTxBuf (i : BusId)
  | sSetRxBuf (i : BusId)
  | sSend (i : BusId)
  | sRecv (i : BusId)
  | sSendBlk (i : BusId)
  | sRecvBlk (i : BusId)
  | sAbort (i : BusId)
  | sGetStatus (i : BusId)
  | seqStart (i : BusId)
  | seqRstart (i : BusId)
  | seqWaitReady (i : BusId)
  | seqTxByte (i : BusId) (b : Byte)
  | seqStop (i : BusId)
  | seqAddress (i : BusId) (d : WireDir)
  | pStart (i : BusId)
  | pRstart (i : BusId)
  | pStop (i : BusId)
  | pSetDir (i : BusId) (d : Dir)
  | pSetAck (i : BusId) (a : Ack)
  | pWriteData (i : BusId) (b : Byte)
  | pReadData (i : BusId)
  | pReadLast (i : BusId)
  | pClearFlag (i : BusId) (f : Sticky)
  | pIntEnable (i : BusId) (src : IntSrc)
  | pIntDisable (i : BusId) (src : IntSrc)
  | pSetDiv (i : BusId) (sample : Byte) (step : BitVec 4)
  | pModuleEnable (i : BusId)
  | pModuleDisable (i : BusId)
  | pGetFlags (i : BusId)
  | pSetDmareq (i : BusId) (d : Dir) (en : Bool)
  deriving DecidableEq, Repr

/-- INST of an instruction. -/
def Instr.inst : Instr → BusId
  | initMaster i _ _ _ _ => i
  | initSlave i _ _ _ _ _ _ => i
  | deinit i => i
  | setRate i => i
  | getRate i => i
  | setTargetAddr i _ => i
  | setOwnAddr i _ => i
  | setCallback i _ => i
  | irqEntry i => i
  | mSend i _ => i
  | mRecv i _ => i
  | mSendBlk i _ => i
  | mRecvBlk i _ => i
  | mAbort i => i
  | mGetStatus i => i
  | sSetTxBuf i => i
  | sSetRxBuf i => i
  | sSend i => i
  | sRecv i => i
  | sSendBlk i => i
  | sRecvBlk i => i
  | sAbort i => i
  | sGetStatus i => i
  | seqStart i => i
  | seqRstart i => i
  | seqWaitReady i => i
  | seqTxByte i _ => i
  | seqStop i => i
  | seqAddress i _ => i
  | pStart i => i
  | pRstart i => i
  | pStop i => i
  | pSetDir i _ => i
  | pSetAck i _ => i
  | pWriteData i _ => i
  | pReadData i => i
  | pReadLast i => i
  | pClearFlag i _ => i
  | pIntEnable i _ => i
  | pIntDisable i _ => i
  | pSetDiv i _ _ => i
  | pModuleEnable i => i
  | pModuleDisable i => i
  | pGetFlags i => i
  | pSetDmareq i _ _ => i

end Sys2Proof
end

