-- ==== Sys2Proof/WellFormed.lean ====
section
/-! DEFINITION. WellFormed.lean: what 30_encoding.md R103 asks of an instruction beyond its syntax. A mask with one
permitted bit, a DMA channel of 8 bits and defined IMM bits are already the only ones `Instr` can hold. -/

namespace Sys2Proof

/-- R103: INST is below `N_INST`. -/
def Instr.wellFormed (nInst : Nat) (x : Instr) : Bool := x.inst.val < nInst

end Sys2Proof
end

