-- ==== Sys2Proof/Decode.lean ====
section
/-! DEFINITION. Decode.lean: the command word of 30_encoding.md R100 to R103 and R124, both ways. Total: a word that
is no operation is rejected by name. -/

namespace Sys2Proof

/-- Why a word is no operation (R103). Each has the same effect: RET receives ERROR and nothing else changes. -/
inductive DecodeError where
  | reservedOpcode
  | reservedBits
  | noSuchInstance
  | undefinedImmBit
  | badFlagMask
  deriving DecidableEq, Repr

/-- What the decoder answers. -/
inductive Decoded where
  | op (x : Instr)
  | rejected (e : DecodeError)
  deriving DecidableEq, Repr

namespace Decode

/-- OPC, bits [31:24]. -/
def opcOf (w : Word) : Byte := w.extractLsb' 24 8

/-- Bits [23:20], which must be 0. -/
def zeroOf (w : Word) : BitVec 4 := w.extractLsb' 20 4

/-- INST, bits [19:16]. -/
def instOf (w : Word) : BusId := (w.extractLsb' 16 4).toFin

/-- IMM, bits [15:0]. -/
def immOf (w : Word) : BitVec 16 := w.extractLsb' 0 16

/-- The word of R100. -/
def mkWord (opc : Byte) (i : BusId) (imm : BitVec 16) : Word :=
  opc ++ ((0#4) ++ (BitVec.ofFin i ++ imm : BitVec 20) : BitVec 24)

/-- An IMM field of `n` bits from bit 0, the bits above it 0 (R101); the field as a number. -/
def low (n : Nat) (imm : BitVec 16) : Option (BitVec n) :=
  if (imm >>> n) = 0 then some (imm.setWidth n) else none

def bitOf (b : BitVec n) (k : Nat) : Bool := b.getLsbD k

def transportOf (b : Bool) : Transport := if b then .dma else .int
def ackOf (b : Bool) : Ack := if b then .nack else .ack
def dirOf (b : Bool) : Dir := if b then .tx else .rx
def wireDirOf (b : Bool) : WireDir := if b then .read else .write

/-- The flag masks of R124, one permitted bit each. -/
def stickyOf (imm : BitVec 16) : Option Sticky :=
  if imm = 0x0004 then some .startf
  else if imm = 0x0008 then some .bnd
  else if imm = 0x0010 then some .rxnack
  else if imm = 0x0020 then some .arblost
  else if imm = 0x0040 then some .addrmatch
  else if imm = 0x0100 then some .stopf
  else none

def srcOf (imm : BitVec 16) : Option IntSrc :=
  if imm = 0x0008 then some .bndie
  else if imm = 0x0010 then some .nackie
  else if imm = 0x0020 then some .arbie
  else if imm = 0x0040 then some .addrie
  else if imm = 0x0100 then some .stopie
  else none

/-- An operation without IMM operand. -/
def none0 (imm : BitVec 16) (x : Instr) : Decoded :=
  if imm = 0 then .op x else .rejected .undefinedImmBit

/-- An operation whose IMM operand is bit 0. -/
def bit0 (imm : BitVec 16) (f : Bool → Instr) : Decoded :=
  match low 1 imm with
  | some v => .op (f (bitOf v 0))
  | none => .rejected .undefinedImmBit

/-- An operation whose IMM operand is the byte [7:0]. -/
def byte0 (imm : BitVec 16) (f : Byte → Instr) : Decoded :=
  match low 8 imm with
  | some v => .op (f v)
  | none => .rejected .undefinedImmBit

/-- IMM of an INIT: `n` flag bits from bit 0, the channel in [15:8] (R101). -/
def initImm (n : Nat) (imm : BitVec 16) (f : BitVec 8 → Chan → Instr) : Decoded :=
  if ((imm.setWidth 8) >>> n) = 0 then .op (f (imm.setWidth 8) (imm.extractLsb' 8 8).toFin)
  else .rejected .undefinedImmBit

def flagMask (imm : BitVec 16) (f : Sticky → Instr) : Decoded :=
  match stickyOf imm with
  | some v => .op (f v)
  | none => .rejected .badFlagMask

def srcMask (imm : BitVec 16) (f : IntSrc → Instr) : Decoded :=
  match srcOf imm with
  | some v => .op (f v)
  | none => .rejected .badFlagMask

/-- The opcode map of R101. -/
def operation (opc : Byte) (i : BusId) (imm : BitVec 16) : Decoded :=
  match opc with
  | 0x01#8 => initImm 3 imm fun v c => .initMaster i (transportOf (bitOf v 0)) (bitOf v 1) (bitOf v 2) c
  | 0x02#8 => initImm 5 imm fun v c =>
      .initSlave i (transportOf (bitOf v 0)) (bitOf v 1) (bitOf v 2) (bitOf v 3) (bitOf v 4) c
  | 0x03#8 => none0 imm (.deinit i)
  | 0x04#8 => none0 imm (.setRate i)
  | 0x05#8 => none0 imm (.getRate i)
  | 0x06#8 => bit0 imm (.setTargetAddr i)
  | 0x07#8 => bit0 imm (.setOwnAddr i)
  | 0x08#8 => bit0 imm (.setCallback i)
  | 0x09#8 => none0 imm (.irqEntry i)
  | 0x10#8 => bit0 imm (.mSend i)
  | 0x11#8 => bit0 imm (.mRecv i)
  | 0x12#8 => bit0 imm (.mSendBlk i)
  | 0x13#8 => bit0 imm (.mRecvBlk i)
  | 0x14#8 => none0 imm (.mAbort i)
  | 0x15#8 => none0 imm (.mGetStatus i)
  | 0x20#8 => none0 imm (.sSetTxBuf i)
  | 0x21#8 => none0 imm (.sSetRxBuf i)
  | 0x22#8 => none0 imm (.sSend i)
  | 0x23#8 => none0 imm (.sRecv i)
  | 0x24#8 => none0 imm (.sSendBlk i)
  | 0x25#8 => none0 imm (.sRecvBlk i)
  | 0x26#8 => none0 imm (.sAbort i)
  | 0x27#8 => none0 imm (.sGetStatus i)
  | 0x30#8 => none0 imm (.seqStart i)
  | 0x31#8 => none0 imm (.seqRstart i)
  | 0x32#8 => none0 imm (.seqWaitReady i)
  | 0x33#8 => byte0 imm (.seqTxByte i)
  | 0x34#8 => none0 imm (.seqStop i)
  | 0x35#8 => bit0 imm fun b => .seqAddress i (wireDirOf b)
  | 0x40#8 => none0 imm (.pStart i)
  | 0x41#8 => none0 imm (.pRstart i)
  | 0x42#8 => none0 imm (.pStop i)
  | 0x43#8 => bit0 imm fun b => .pSetDir i (dirOf b)
  | 0x44#8 => bit0 imm fun b => .pSetAck i (ackOf b)
  | 0x45#8 => byte0 imm (.pWriteData i)
  | 0x46#8 => none0 imm (.pReadData i)
  | 0x47#8 => none0 imm (.pReadLast i)
  | 0x48#8 => flagMask imm (.pClearFlag i)
  | 0x49#8 => srcMask imm (.pIntEnable i)
  | 0x4A#8 => srcMask imm (.pIntDisable i)
  | 0x4B#8 =>
    match low 12 imm with
    | some v => .op (.pSetDiv i (v.extractLsb' 0 8) (v.extractLsb' 8 4))
    | none => .rejected .undefinedImmBit
  | 0x4C#8 => none0 imm (.pModuleEnable i)
  | 0x4D#8 => none0 imm (.pModuleDisable i)
  | 0x4E#8 => none0 imm (.pGetFlags i)
  | 0x4F#8 =>
    match low 2 imm with
    | some v => .op (.pSetDmareq i (dirOf (bitOf v 0)) (bitOf v 1))
    | none => .rejected .undefinedImmBit
  | _ => .rejected .reservedOpcode

end Decode

open Decode in
/-- R103: the operation a word written to CMD stands for. -/
def decode (nInst : Nat) (w : Word) : Decoded :=
  if zeroOf w ≠ 0 then .rejected .reservedBits
  else if (instOf w).val < nInst then operation (opcOf w) (instOf w) (immOf w)
  else .rejected .noSuchInstance

namespace Encode

def b2 (b : Bool) : BitVec 1 := BitVec.ofBool b
def transport (t : Transport) : Bool := t == .dma
def ack (a : Ack) : Bool := a == .nack
def dir (d : Dir) : Bool := d == .tx
def wireDir (d : WireDir) : Bool := d == .read

def sticky : Sticky → BitVec 16
  | .startf => 0x0004
  | .bnd => 0x0008
  | .rxnack => 0x0010
  | .arblost => 0x0020
  | .addrmatch => 0x0040
  | .stopf => 0x0100

def src : IntSrc → BitVec 16
  | .bndie => 0x0008
  | .nackie => 0x0010
  | .arbie => 0x0020
  | .addrie => 0x0040
  | .stopie => 0x0100

/-- OPC of R101. -/
def opc : Instr → Byte
  | .initMaster .. => 0x01
  | .initSlave .. => 0x02
  | .deinit .. => 0x03
  | .setRate .. => 0x04
  | .getRate .. => 0x05
  | .setTargetAddr .. => 0x06
  | .setOwnAddr .. => 0x07
  | .setCallback .. => 0x08
  | .irqEntry .. => 0x09
  | .mSend .. => 0x10
  | .mRecv .. => 0x11
  | .mSendBlk .. => 0x12
  | .mRecvBlk .. => 0x13
  | .mAbort .. => 0x14
  | .mGetStatus .. => 0x15
  | .sSetTxBuf .. => 0x20
  | .sSetRxBuf .. => 0x21
  | .sSend .. => 0x22
  | .sRecv .. => 0x23
  | .sSendBlk .. => 0x24
  | .sRecvBlk .. => 0x25
  | .sAbort .. => 0x26
  | .sGetStatus .. => 0x27
  | .seqStart .. => 0x30
  | .seqRstart .. => 0x31
  | .seqWaitReady .. => 0x32
  | .seqTxByte .. => 0x33
  | .seqStop .. => 0x34
  | .seqAddress .. => 0x35
  | .pStart .. => 0x40
  | .pRstart .. => 0x41
  | .pStop .. => 0x42
  | .pSetDir .. => 0x43
  | .pSetAck .. => 0x44
  | .pWriteData .. => 0x45
  | .pReadData .. => 0x46
  | .pReadLast .. => 0x47
  | .pClearFlag .. => 0x48
  | .pIntEnable .. => 0x49
  | .pIntDisable .. => 0x4A
  | .pSetDiv .. => 0x4B
  | .pModuleEnable .. => 0x4C
  | .pModuleDisable .. => 0x4D
  | .pGetFlags .. => 0x4E
  | .pSetDmareq .. => 0x4F

/-- IMM of R101. -/
def imm : Instr → BitVec 16
  | .initMaster _ t a c ch =>
    (BitVec.ofFin ch : BitVec 8) ++ (0#5 ++ (b2 c ++ (b2 a ++ b2 (transport t) : BitVec 2) : BitVec 3) : BitVec 8)
  | .initSlave _ t a c l w ch =>
    (BitVec.ofFin ch : BitVec 8) ++ (0#3 ++ (b2 w ++ (b2 l ++ (b2 c ++ (b2 a ++ b2 (transport t) : BitVec 2)
      : BitVec 3) : BitVec 4) : BitVec 5) : BitVec 8)
  | .deinit _ => 0
  | .setRate _ => 0
  | .getRate _ => 0
  | .setTargetAddr _ a => (b2 a).setWidth 16
  | .setOwnAddr _ a => (b2 a).setWidth 16
  | .setCallback _ b => (b2 b).setWidth 16
  | .irqEntry _ => 0
  | .mSend _ b => (b2 b).setWidth 16
  | .mRecv _ b => (b2 b).setWidth 16
  | .mSendBlk _ b => (b2 b).setWidth 16
  | .mRecvBlk _ b => (b2 b).setWidth 16
  | .mAbort _ => 0
  | .mGetStatus _ => 0
  | .sSetTxBuf _ => 0
  | .sSetRxBuf _ => 0
  | .sSend _ => 0
  | .sRecv _ => 0
  | .sSendBlk _ => 0
  | .sRecvBlk _ => 0
  | .sAbort _ => 0
  | .sGetStatus _ => 0
  | .seqStart _ => 0
  | .seqRstart _ => 0
  | .seqWaitReady _ => 0
  | .seqTxByte _ b => b.setWidth 16
  | .seqStop _ => 0
  | .seqAddress _ d => (b2 (wireDir d)).setWidth 16
  | .pStart _ => 0
  | .pRstart _ => 0
  | .pStop _ => 0
  | .pSetDir _ d => (b2 (dir d)).setWidth 16
  | .pSetAck _ a => (b2 (ack a)).setWidth 16
  | .pWriteData _ b => b.setWidth 16
  | .pReadData _ => 0
  | .pReadLast _ => 0
  | .pClearFlag _ f => sticky f
  | .pIntEnable _ s => src s
  | .pIntDisable _ s => src s
  | .pSetDiv _ sample step => (step ++ sample : BitVec 12).setWidth 16
  | .pModuleEnable _ => 0
  | .pModuleDisable _ => 0
  | .pGetFlags _ => 0
  | .pSetDmareq _ d en => (b2 en ++ b2 (dir d) : BitVec 2).setWidth 16

end Encode

/-- The command word of an instruction (R100, R101). -/
def encode (x : Instr) : Word := Decode.mkWord (Encode.opc x) x.inst (Encode.imm x)

/-- What the decoder reads from a row's word, numbered as the opcode table numbers it: one 32-bit word, `N_INST` at
its default (R7). -/
def decodeTableWord (nbits w : Nat) : Option Instr :=
  match decode Params.default.nInst (BitVec.ofNat 32 (w % 2 ^ nbits)) with
  | .op x => some x
  | .rejected _ => none

end Sys2Proof
end

