-- ==== Sys2Proof/Machine/State.lean ====
section
/-! DEFINITION. State.lean: all the state 10_state.md gives the block (R20 to R58), the environment's schedule and
draws as plain data (60_exceptions.md R471), the reasons a step can stop, and the state after reset (R480). -/

namespace Sys2Proof.Machine

/-- Why the machine stops with a fault. The engine itself has none (93_implementation_defined.md, closing sentence). -/
inductive Fault where
  /-- Raised by a host access at an offset from `E_BASE` at which R28 lists no register. SAFE: the machine stops. -/
  | noSuchRegister (off : Word)
  deriving DecidableEq, Repr

/-- Why a step has no meaning. All are SAFE: the machine stops where the spec's own treatment is `refuse` (DESIGN CHOICE, log entry 16). -/
inductive Refusal where
  /-- Raised by an arm of exec whose instruction has no meaning yet. -/
  | notModelled (mnemonic : String)
  /-- U1, R94, R490: raised by a host access to a buffer it has lent. -/
  | lentBuffer (a : Word)
  /-- U4: raised by a command or a callback that lends a buffer which passes the end of the address space. -/
  | bufferPastEnd (buf len : Word)
  /-- U5, R28: raised by a host store that is not the one-field access of a primitive, among them every store to
  DATALAST and a store to STATUS that clears no flag. -/
  | notOneField (off : Word)
  /-- U6, R503: raised by an INIT that binds a DMA channel another initialised instance is bound to. -/
  | channelShared (c : Chan)
  /-- U7, R153: raised by a P_SET_DIV outside the divider ranges. -/
  | dividerOutOfRange (sample : Byte) (step : BitVec 4)
  /-- U9, R79: raised by a register access narrower than a word or misaligned. -/
  | notWholeWord (addr : Word)
  /-- U11, R504: raised by lending a slave buffer while the instance's DMA channel moves the old one. -/
  | bufferMoving (i : BusId)
  /-- R27: raised by a read of CMD, which is write-only. -/
  | writeOnly (off : Word)
  deriving DecidableEq, Repr

/-- Transfer Result codes, numbered by R120. -/
inductive Result where
  | success
  | error
  | busy
  | timeout
  | receivedNack
  | txUnderrun
  | rxOverrun
  | arbitrationLost
  | aborted
  deriving DecidableEq, Repr

/-- Callback event codes, numbered by R122. -/
inductive Event where
  | endOfTransfer
  | addressMatch
  | error
  | txEmpty
  deriving DecidableEq, Repr

/-- Role codes of R126. -/
inductive Role where
  | none
  | master
  | slave
  deriving DecidableEq, Repr

/-- Phase codes of R126. -/
inductive Phase where
  | idle
  | address
  | data
  | stop
  | error
  | armed
  deriving DecidableEq, Repr

/-- The one request a core has accepted and not yet completed (R53, R158). -/
inductive Pend where
  | none
  | start
  | rstart
  | stop
  | txByte (b : Byte)
  | rxByte
  deriving DecidableEq, Repr

/-- Wire symbols of R55. `pRemote` is `P'`, `x` is `X`, `am` is `AM`. -/
inductive Sym where
  | s
  | sr
  | p
  | w (b : Byte) (a : Ack)
  | r (b : Byte) (a : Ack)
  | am (d : WireDir)
  | pRemote
  | x
  deriving DecidableEq, Repr

/-- One bus core: R21 to R26, R29, R53. READY is not stored (R171 (a)). -/
structure BusCore where
  moden : Bool := false
  mstr : Bool := false
  dir : Dir := .rx
  acksel : Ack := .ack
  wakeen : Bool := false
  addr10 : Bool := false
  dmatxen : Bool := false
  dmarxen : Bool := false
  data : Byte := 0
  sample : Byte := 0
  step : BitVec 4 := 0
  busy : Bool := false
  startf : Bool := false
  bnd : Bool := false
  rxnack : Bool := false
  arblost : Bool := false
  addrmatch : Bool := false
  srw : Bool := false
  stopf : Bool := false
  owner : Bool := false
  bndie : Bool := false
  nackie : Bool := false
  arbie : Bool := false
  addrie : Bool := false
  stopie : Bool := false
  ownaddr : BitVec 10 := 0
  pend : Pend := .none
  sel : Bool := false
  /-- The 10-bit selection R115 remembers (DEDUCED, log entry 8). -/
  sel10 : Bool := false
  deriving DecidableEq, Repr

/-- The fields master and slave context have in common (R31, R33). -/
structure Xfer where
  txBuf : Option Word := .none
  txRemaining : Word := 0
  rxBuf : Option Word := .none
  rxRemaining : Word := 0
  rxCursor : Word := 0
  addr10 : Bool := false
  transport : Transport := .int
  dmaChannel : Chan := 0
  lastResult : Result := .success
  idle : Bool := true
  blocking : Bool := false
  cb : Option Word := .none
  /-- The model's own: the send buffer lent by the command that started the transfer (DESIGN CHOICE, log entry 21). -/
  txLent : Option Lend := .none
  /-- The model's own: the receive buffer lent by the command that started the transfer (DESIGN CHOICE, log entry 21). -/
  rxLent : Option Lend := .none
  deriving DecidableEq, Repr

/-- Master context `m[i]` (R31). -/
structure MCtx extends Xfer where
  slaveAddr : BitVec 10 := 0
  stopOnCompletion : Bool := false
  deriving DecidableEq, Repr

/-- Slave context `s[i]` (R33). -/
structure SCtx extends Xfer where
  listening : Bool := false
  inProgress : Bool := false
  wakeup : Bool := false
  dmaDir : Dir := .tx
  curDir : Dir := .tx
  /-- The part the channel was configured for since the last settle, by its direction (R366; DEDUCED, log entry 13). -/
  unsettled : Option Dir := .none
  /-- The model's own: the send buffer lent last by S_SET_TX_BUF or a callback (DESIGN CHOICE, log entry 21). -/
  txSet : Option Lend := .none
  /-- The model's own: the receive buffer lent last by S_SET_RX_BUF or a callback (DESIGN CHOICE, log entry 21). -/
  rxSet : Option Lend := .none
  deriving DecidableEq, Repr

/-- An event delivered to a callback: instance, code, user parameter (R122, R440; DEDUCED, log entry 22). -/
structure CbRecord where
  inst : BusId
  event : Event
  user : Word
  deriving DecidableEq, Repr

/-- One bus instance (R20, R30 to R36, R46, R50 to R52, R55, R56). -/
structure Bus where
  role : Role := .none
  core : BusCore := {}
  m : MCtx := {}
  s : SCtx := {}
  phase : Phase := .idle
  sem : Nat := 0
  wait : Option Word := .none
  clk : Bool := false
  trace : List Sym := []
  cbtrace : List CbRecord := []
  /-- OUT0 holds the answer of an operation admitted while a command of this instance waits (R411; DEDUCED, log entry 30). -/
  outGiven : Bool := false
  deriving DecidableEq, Repr

/-- An end of a DMA transfer: a memory address, or the data register of an instance (R49). -/
inductive Endpoint where
  | mem (a : Word)
  | data (i : BusId)
  deriving DecidableEq, Repr

inductive DmaDir where
  | mem2dev
  | dev2mem
  deriving DecidableEq, Repr

/-- One DMA channel with its pending events (R49, R54). -/
structure DmaChan where
  src : Endpoint := .mem 0
  dst : Endpoint := .mem 0
  remaining : Word := 0
  dir : DmaDir := .mem2dev
  active : Bool := false
  owner : Option BusId := .none
  done : Bool := false
  err : Bool := false
  deriving DecidableEq, Repr

/-- Entries of `dmatrace` (R57). -/
inductive DmaCall where
  | configure (c : Chan)
  | installCallback (c : Chan)
  | start (c : Chan)
  | stop (c : Chan)
  | getRemaining (c : Chan)
  | idle (i : BusId)
  deriving DecidableEq, Repr

/-- The host port (R27). HSTAT is not stored. `rdata` is the model's own: what the last host read delivered. -/
structure Port where
  cmd : Word := 0
  arg0 : Word := 0
  arg1 : Word := 0
  arg2 : Word := 0
  ret : Word := 0
  out0 : Word := 0
  rdata : Word := 0
  deriving DecidableEq, Repr

/-- The width of a host access to the register space (R79). -/
inductive Width where
  | byte
  | half
  | word
  deriving DecidableEq, Repr

/-- What an agent does between two operations (R447, R471; DESIGN CHOICE, log entry 1). A register is accessed at its
address, which is `E_BASE` and the offset of R28. -/
inductive Input where
  | regWrite (width : Width) (addr v : Word)
  | regRead (width : Width) (addr : Word)
  | memWrite (a : Word) (b : Byte)
  | memRead (a : Word)
  | bus (i : BusId) (d : BusDraw)
  | dmaServe (c : Chan)
  | dmaFail (c : Chan)
  | dispatch (i : BusId)
  | wake (i : BusId)
  | timeout (i : BusId)
  | sysReset
  deriving DecidableEq, Repr

/-- The environment as plain data: what the agents do next, the draws made inside operations, and the counter of
the free values drawn once a list of draws is used up (log entries 1, 2). -/
structure Env where
  inputs : List Input := []
  polls : List PollDraw := []
  cbs : List CbDraw := []
  drawn : Nat := 0
  deriving DecidableEq, Repr

structure State where
  params : Params
  buses : Vector Bus 16
  dma : Vector DmaChan 256
  dmatrace : List DmaCall
  mem : List Host.Cell
  port : Port
  env : Env
  deriving DecidableEq, Repr

/-- R480: the state after reset. Every field default above is the reset value. -/
def State.reset : State where
  params := Params.default
  buses := Vector.replicate 16 {}
  dma := Vector.replicate 256 {}
  dmatrace := []
  mem := []
  port := {}
  env := {}

end Sys2Proof.Machine
end

