-- ==== Sys2Proof/Machine/Ops.lean ====
section
/-! DEFINITION. Ops.lean: the named operations over the state: buffer memory, the instance table, the DMA table, the
port, the draws, the callback, and the one way a command is turned away (60_exceptions.md R430, R434). The engine has no
trap and no return from one (R448, R450): what stands in their place is `State.reject` here, the error exits of
Master.lean and Slave.lean, and Dispatch of Events.lean. -/

namespace Sys2Proof.Machine

/-- The outcome of a step of this machine. -/
abbrev Res := Host.Outcome State Fault Refusal

/-- Goes on from a next state. -/
def Res.bind (r : Res) (f : State → Res) : Res :=
  match r with
  | .next s => f s
  | .fault e => .fault e
  | .refused e => .refused e

/-! ## Buffer memory (R70 (1), R80; DESIGN CHOICE, log entry 4) -/

/-- What an unlisted address reads as. -/
def unlistedByte : Byte := 0

/-- Reads one byte. -/
def memRead (m : List Host.Cell) (a : Nat) : Byte :=
  match m with
  | [] => unlistedByte
  | (k, v) :: rest => if k = a then v else memRead rest a

/-- A listed cell, unless its value is what an unlisted address reads as. -/
def memCell (a : Nat) (v : Byte) (rest : List Host.Cell) : List Host.Cell :=
  if v = unlistedByte then rest else (a, v) :: rest

/-- Writes one byte and keeps the canonical form. -/
def memWrite (m : List Host.Cell) (a : Nat) (v : Byte) : List Host.Cell :=
  match m with
  | [] => memCell a v []
  | (k, u) :: rest =>
    if k = a then memCell a v rest
    else if a < k then memCell a v ((k, u) :: rest)
    else (k, u) :: memWrite rest a v

/-- The canonical form: addresses strictly rising, no entry equal to what an unlisted address reads as. -/
def Memory.wf (m : List Host.Cell) : Bool :=
  match m with
  | [] => true
  | (a, v) :: rest => v != unlistedByte && rest.all (fun c => decide (a < c.1)) && Memory.wf rest

/-- `MemRead(a, 1)` of R13. -/
def State.load (s : State) (a : Word) : Byte := memRead s.mem a.toNat

/-- `MemWrite(a, 1, b)` of R13. -/
def State.store (s : State) (a : Word) (b : Byte) : State := { s with mem := memWrite s.mem a.toNat b }

/-! ## The instance table and the DMA table -/

def State.bus (s : State) (i : BusId) : Bus := s.buses[i.val]

def State.setBus (s : State) (i : BusId) (b : Bus) : State := { s with buses := s.buses.set i.val b }

def State.modBus (s : State) (i : BusId) (f : Bus → Bus) : State := s.setBus i (f (s.bus i))

def Bus.modCore (b : Bus) (f : BusCore → BusCore) : Bus := { b with core := f b.core }

def Bus.modM (b : Bus) (f : MCtx → MCtx) : Bus := { b with m := f b.m }

def Bus.modS (b : Bus) (f : SCtx → SCtx) : Bus := { b with s := f b.s }

def Bus.setPhase (b : Bus) (p : Phase) : Bus := { b with phase := p }

def State.core (s : State) (i : BusId) : BusCore := (s.bus i).core

def State.m (s : State) (i : BusId) : MCtx := (s.bus i).m

def State.s (s : State) (i : BusId) : SCtx := (s.bus i).s

def State.modCore (s : State) (i : BusId) (f : BusCore → BusCore) : State := s.modBus i (·.modCore f)

def State.modM (s : State) (i : BusId) (f : MCtx → MCtx) : State := s.modBus i (·.modM f)

def State.modS (s : State) (i : BusId) (f : SCtx → SCtx) : State := s.modBus i (·.modS f)

def State.setPhase (s : State) (i : BusId) (p : Phase) : State := s.modBus i (·.setPhase p)

/-- The context bound to the instance (R30). -/
def Bus.ctx (b : Bus) : Xfer :=
  match b.role with
  | .slave => b.s.toXfer
  | .master => b.m.toXfer
  | .none => b.m.toXfer

def MCtx.modX (c : MCtx) (f : Xfer → Xfer) : MCtx := { c with toXfer := f c.toXfer }

def SCtx.modX (c : SCtx) (f : Xfer → Xfer) : SCtx := { c with toXfer := f c.toXfer }

/-- Changes the context bound to the instance. -/
def Bus.modCtx (b : Bus) (f : Xfer → Xfer) : Bus :=
  match b.role with
  | .slave => b.modS (·.modX f)
  | .master => b.modM (·.modX f)
  | .none => b.modM (·.modX f)

def State.ctx (s : State) (i : BusId) : Xfer := (s.bus i).ctx

def State.modCtx (s : State) (i : BusId) (f : Xfer → Xfer) : State := s.modBus i (·.modCtx f)

def State.chan (s : State) (c : Chan) : DmaChan := s.dma[c.val]

def State.setChan (s : State) (c : Chan) (d : DmaChan) : State := { s with dma := s.dma.set c.val d }

def State.modChan (s : State) (c : Chan) (f : DmaChan → DmaChan) : State := s.setChan c (f (s.chan c))

/-- `dmatrace += x` (R57). -/
def State.logDma (s : State) (x : DmaCall) : State := { s with dmatrace := s.dmatrace ++ [x] }

/-! ## The port -/

/-- The numbers of R120. -/
def Result.code : Result → Word
  | .success => 0
  | .error => 1
  | .busy => 2
  | .timeout => 3
  | .receivedNack => 4
  | .txUnderrun => 5
  | .rxOverrun => 6
  | .arbitrationLost => 7
  | .aborted => 8

/-- The numbers of R122. -/
def Event.code : Event → Word
  | .endOfTransfer => 0
  | .addressMatch => 1
  | .error => 2
  | .txEmpty => 3

/-- The numbers of R126. -/
def Role.code : Role → Word
  | .none => 0
  | .master => 1
  | .slave => 2

/-- The numbers of R126. -/
def Phase.code : Phase → Word
  | .idle => 0
  | .address => 1
  | .data => 2
  | .stop => 3
  | .error => 4
  | .armed => 5

def State.setRetWord (s : State) (v : Word) : State := { s with port := { s.port with ret := v } }

/-- `return r` (R14). -/
def State.setRet (s : State) (r : Result) : State := s.setRetWord r.code

def State.setOut0 (s : State) (v : Word) : State := { s with port := { s.port with out0 := v } }

/-- OUT0 of an operation that is admitted while a blocking command waits too (R104 (3), R411). -/
def State.giveOut0 (s : State) (i : BusId) (v : Word) : State :=
  (s.setOut0 v).modBus i fun b => { b with outGiven := b.outGiven || b.wait.isSome }

def State.setRdata (s : State) (v : Word) : State := { s with port := { s.port with rdata := v } }

/-- How a command is turned away: the result code in RET and nothing else (R430, R433, R434). -/
def State.reject (s : State) (r : Result) : Res := .next (s.setRet r)

/-! ## Draws (R471; DESIGN CHOICE, log entry 2) -/

/-- The next draw of a poll, and the state in which it has been made. -/
def State.drawPoll (s : State) : PollDraw × State :=
  match s.env.polls with
  | d :: rest => (d, { s with env := { s.env with polls := rest } })
  | [] => (Config.freePoll s.env.drawn, { s with env := { s.env with drawn := s.env.drawn + 1 } })

/-- The next draw of a callback. -/
def State.drawCb (s : State) : CbDraw × State :=
  match s.env.cbs with
  | d :: rest => (d, { s with env := { s.env with cbs := rest } })
  | [] => (Config.freeCb s.env.drawn, { s with env := { s.env with drawn := s.env.drawn + 1 } })

/-- A free word, where the spec does not state the value (log entries 17, 30). -/
def State.drawRead (s : State) : Word × State :=
  (Config.freeRead s.env.drawn, { s with env := { s.env with drawn := s.env.drawn + 1 } })

/-! ## Semaphore and callback -/

/-- `SemPost(i)` (R381). -/
def Bus.semPost (b : Bus) : Bus := { b with sem := b.sem + 1 }

/-- A posted caller that has not been resumed yet: the wake of R388 is enabled. -/
def Bus.wakeDue (b : Bus) : Bool := b.wait.isSome && b.sem != 0

/-- `SemClear(i)` (R381). -/
def Bus.semClear (b : Bus) : Bus := { b with sem := 0 }

/-- The record half of `callback(i, e)` (R440): nothing when no callback is installed. -/
def Bus.notify (b : Bus) (i : BusId) (e : Event) : Bus :=
  match b.ctx.cb with
  | .none => b
  | .some user => { b with cbtrace := b.cbtrace ++ [⟨i, e, user⟩] }

/-- `callback(i, e)` where R440 lets the user's function lend nothing: every event of a master, and END_OF_TRANSFER. -/
def State.notify (s : State) (i : BusId) (e : Event) : State := s.modBus i (·.notify i e)

/-! ## Buffers of a context (R31, R71) -/

def Xfer.setTx (x : Xfer) (buf len : Word) : Xfer := { x with txBuf := .some buf, txRemaining := len }

def Xfer.setRx (x : Xfer) (buf len : Word) : Xfer := { x with rxBuf := .some buf, rxRemaining := len, rxCursor := 0 }

/-- The buffer of a command that starts a transfer, held until the context is idle again (R490; DESIGN CHOICE, log
entry 21). -/
def Xfer.holdTx (x : Xfer) (buf len : Word) : Xfer := { x with txLent := .some ⟨buf, len⟩, rxLent := .none }

def Xfer.holdRx (x : Xfer) (buf len : Word) : Xfer := { x with txLent := .none, rxLent := .some ⟨buf, len⟩ }

def Xfer.unsetTx (x : Xfer) : Xfer := { x with txBuf := .none, txRemaining := 0, txLent := .none }

def Xfer.unsetRx (x : Xfer) : Xfer := { x with rxBuf := .none, rxRemaining := 0, rxLent := .none }

/-- The four assignments with which every end of a transfer gives the buffers back (R71). -/
def Xfer.unsetBufs (x : Xfer) : Xfer := x.unsetTx.unsetRx

/-- A byte of the send buffer has been taken (R72). -/
def Xfer.advanceTx (x : Xfer) (n : Word) : Xfer :=
  { x with txBuf := x.txBuf.map (· + n), txRemaining := x.txRemaining - n }

/-- Bytes have been placed into the receive buffer (R73). -/
def Xfer.advanceRx (x : Xfer) (n : Word) : Xfer :=
  { x with rxCursor := x.rxCursor + n, rxRemaining := x.rxRemaining - n }

/-- The address in a buffer field; free where R32 (a) rules the case out (DESIGN CHOICE, log entry 18). -/
def bufAddr (b : Option Word) : Word :=
  match b with
  | .some a => a
  | .none => Config.unsetBuf

end Sys2Proof.Machine
end

