-- ==== Sys2Proof/Machine/Flags.lean ====
section
/-! DEFINITION. Flags.lean: the flags and enables of the core, the words they are read in, the interrupt line and the
DMA request (10_state.md R24, R25, R28; 40_primitives.md R171, R172), and the sequencer's status word (R118, R201). -/

namespace Sys2Proof.Machine

/-- READY (R171 (a)). -/
def BusCore.ready (c : BusCore) : Bool := c.moden && c.pend == .none

/-- P_CLEAR_FLAG (R146). -/
def BusCore.clearFlag (c : BusCore) (f : Sticky) : BusCore :=
  match f with
  | .startf => { c with startf := false }
  | .bnd => { c with bnd := false }
  | .rxnack => { c with rxnack := false }
  | .arblost => { c with arblost := false }
  | .addrmatch => { c with addrmatch := false }
  | .stopf => { c with stopf := false }

/-- P_INT_ENABLE and P_INT_DISABLE (R151, R152). -/
def BusCore.setEnable (c : BusCore) (src : IntSrc) (v : Bool) : BusCore :=
  match src with
  | .bndie => { c with bndie := v }
  | .nackie => { c with nackie := v }
  | .arbie => { c with arbie := v }
  | .addrie => { c with addrie := v }
  | .stopie => { c with stopie := v }

/-- P_SET_DMAREQ (R156). -/
def BusCore.setDmareq (c : BusCore) (d : Dir) (en : Bool) : BusCore :=
  match d with
  | .tx => { c with dmatxen := en }
  | .rx => { c with dmarxen := en }

/-- `irq[i]` (R25). -/
def BusCore.irq (c : BusCore) : Bool :=
  (c.bnd && c.bndie) || (c.rxnack && c.nackie) || (c.arblost && c.arbie) || (c.addrmatch && c.addrie)
    || (c.stopf && c.stopie)

/-- `dreq[i]` (R172). -/
def BusCore.dreq (c : BusCore) : Bool :=
  c.bnd && !c.rxnack && ((c.dmatxen && c.dir == .tx) || (c.dmarxen && c.dir == .rx))

/-- One bit of a register word. -/
def bitAt (n : Nat) (b : Bool) : Word := if b then 1#32 <<< n else 0

/-- STATUS (R28). -/
def BusCore.statusWord (c : BusCore) : Word :=
  bitAt 0 c.ready ||| bitAt 1 c.busy ||| bitAt 2 c.startf ||| bitAt 3 c.bnd ||| bitAt 4 c.rxnack |||
  bitAt 5 c.arblost ||| bitAt 6 c.addrmatch ||| bitAt 7 c.srw ||| bitAt 8 c.stopf ||| bitAt 9 c.owner

/-- INTEN (R28). -/
def BusCore.intenWord (c : BusCore) : Word :=
  bitAt 3 c.bndie ||| bitAt 4 c.nackie ||| bitAt 5 c.arbie ||| bitAt 6 c.addrie ||| bitAt 8 c.stopie

/-- CTRL (R28); START, RSTART and STOP read 0. -/
def BusCore.ctrlWord (c : BusCore) : Word :=
  bitAt 0 c.moden ||| bitAt 1 c.mstr ||| bitAt 2 (c.dir == .tx) ||| bitAt 3 (c.acksel == .nack) |||
  bitAt 8 c.wakeen ||| bitAt 9 c.addr10 ||| bitAt 10 c.dmatxen ||| bitAt 11 c.dmarxen

/-- DIV (R28). -/
def BusCore.divWord (c : BusCore) : Word := (c.step ++ c.sample : BitVec 12).setWidth 32

/-- HSTAT (R27, R51). -/
def State.hstat (s : State) : Word :=
  (List.finRange 16).foldl (fun w i => w ||| bitAt i.val (s.bus i).wait.isSome) 0

/-! ## The sequencer's status word (R118) -/

def toStart : Word := 0x01
def toReady : Word := 0x02
def toByte : Word := 0x04
def toStop : Word := 0x08
def stNack : Word := 0x10
def stArbLost : Word := 0x20

/-- `Classify` (R201) of a status word that is not 0. -/
def classify (st : Word) : Result :=
  if st = 0 then .success
  else if st.getLsbD 5 then .arbitrationLost
  else if st &&& 0x0F ≠ 0 then .error
  else .receivedNack

end Sys2Proof.Machine
end

