-- ==== Sys2Proof/Machine/Operands.lean ====
section
/-! DEFINITION. Operands.lean: admission by role and state (30_encoding.md R104) and the operand tests the commands
share (R114, R225, R400; 60_exceptions.md R433). -/

namespace Sys2Proof.Machine

/-- The operations as R104 tells them apart. -/
inductive OpClass where
  | init
  | deinit
  | setRate
  | getRate
  | setTarget
  | setOwn
  | setCallback
  | irqEntry
  | mStart
  | mAbort
  | mStatus
  | sLend
  | sStart
  | sAbort
  | sStatus
  | seq
  | seqAddress
  | prim
  deriving DecidableEq, Repr

/-- R104 (2): the roles the operation is for. -/
def OpClass.roleOk : OpClass → Role → Bool
  | .mStart, r => r == .master
  | .mAbort, r => r == .master
  | .mStatus, r => r == .master
  | .sLend, r => r == .slave
  | .sStart, r => r == .slave
  | .sAbort, r => r == .slave
  | .sStatus, r => r == .slave
  | .setTarget, r => r != .slave
  | .setOwn, r => r != .master
  | .seqAddress, r => r != .slave
  | _, _ => true

/-- R104 (3): what is admitted while a blocking command is suspended. -/
def OpClass.whileWaiting : OpClass → Bool
  | .mAbort => true
  | .sAbort => true
  | .mStatus => true
  | .sStatus => true
  | .sLend => true
  | .setCallback => true
  | .getRate => true
  | .irqEntry => true
  | _ => false

/-- R104 (4): what needs an idle context. -/
def OpClass.needsIdle : OpClass → Bool
  | .prim => true
  | .seq => true
  | .seqAddress => true
  | .setRate => true
  | .setTarget => true
  | .setOwn => true
  | .mStart => true
  | .sStart => true
  | _ => false

/-- R104: the first failing test, or `none` for an admitted operation (an INIT while a command is suspended: DEDUCED, log
entry 20). -/
def Bus.turnAway (b : Bus) (k : OpClass) : Option Result :=
  if b.role = .none ∧ k ≠ .init then .some .error
  else if b.role ≠ .none ∧ k.roleOk b.role = false then .some .error
  else if b.wait.isSome ∧ k.whileWaiting = false then .some .busy
  else if b.ctx.idle = false ∧ k.needsIdle then .some .busy
  else .none

/-- Runs `f` on an admitted operation; turns the others away (R104, R434). -/
def admitted (k : OpClass) (i : BusId) (s : State) (f : State → Res) : Res :=
  match (s.bus i).turnAway k with
  | .some r => s.reject r
  | .none => f s

/-- R225, R281: length 0, or above `LEN_MAX`. -/
def State.badLen (s : State) (len : Word) : Bool := len == 0 || decide (s.params.lenMax < len)

/-- U4: `buf .. buf+len-1` passes the end of the 32-bit address space. -/
def pastEnd (buf len : Word) : Bool := decide (2 ^ 32 < buf.toNat + len.toNat)

/-- R114, R400: the range of an address. -/
def addrOutOfRange (addr10 : Bool) (a : Word) : Bool :=
  if addr10 then decide (0x3FF < a) else decide (0x7F < a)

/-- Runs `f` with the buffer and length in ARG0 and ARG1 once they pass the length test and U4. -/
def withBuffer (s : State) (f : Word → Word → Res) : Res :=
  if s.badLen s.port.arg1 then s.reject .error
  else if pastEnd s.port.arg0 s.port.arg1 then .refused (.bufferPastEnd s.port.arg0 s.port.arg1)
  else f s.port.arg0 s.port.arg1

end Sys2Proof.Machine
end

