-- ==== Sys2Proof/Machine/Wire.lean ====
section
/-! DEFINITION. Wire.lean: the address bytes (30_encoding.md R110 to R115) and the bus step, that is the core's reactions
to its pending request and to the wires (40_primitives.md R158 to R173). -/

namespace Sys2Proof.Machine

def wireBit : WireDir → BitVec 1
  | .write => 0
  | .read => 1

/-- `AB7(a, d)` (R110). -/
def ab7 (a : BitVec 10) (d : WireDir) : Byte := a.extractLsb' 0 7 ++ wireBit d

/-- `PFX(a, d)` (R111). -/
def pfx (a : BitVec 10) (d : WireDir) : Byte := (0b11110#5 ++ (a.extractLsb' 8 2 ++ wireBit d : BitVec 3) : BitVec 8)

/-- `LOW(a)` (R112). -/
def lowByte (a : BitVec 10) : Byte := a.extractLsb' 0 8

/-- A one-byte address phase seen by a slave core (R115): its 7-bit address, or, while selected in 10-bit mode, the read
prefix after a repeated start. -/
def BusCore.matchAddress (c : BusCore) (b : Byte) : Option WireDir :=
  if c.addr10 then
    if c.sel10 ∧ b = pfx c.ownaddr .read then .some .read else .none
  else if b = ab7 c.ownaddr .write then .some .write
  else if b = ab7 c.ownaddr .read then .some .read
  else .none

/-- A start followed by two address bytes, as seen by a slave core (R115). Unless they are its own prefix and low byte in 10-bit
mode, the first byte decides: in 7-bit mode its own address, also where it is a prefix (R506), and in 10-bit mode, while selected,
its own read prefix, after which R112 and R113 know no second address byte. That the second byte then comes by a draw of its own
is DEDUCED (log entry 26). -/
def BusCore.matchAddress10 (c : BusCore) (b1 b2 : Byte) : Option WireDir :=
  if c.addr10 ∧ b1 = pfx c.ownaddr .write ∧ b2 = lowByte c.ownaddr then .some .write else c.matchAddress b1

/-! ## Requests and their completion -/

/-- R171: MODEN becomes 0. -/
def BusCore.disable (c : BusCore) : BusCore :=
  { c with moden := false, pend := .none, busy := false, owner := false, sel := false, sel10 := false }

/-- The pending request can complete in a bus step: R160 (a start is withheld while BUSY = 1, log entry 7),
R161 to R164, R169; nothing happens while MODEN = 0 (R171). -/
def BusCore.canComplete (c : BusCore) : Bool :=
  c.moden &&
  match c.pend with
  | .none => false
  | .start => !c.busy
  | .rstart => true
  | .stop => true
  | .txByte _ => c.owner || (c.sel && c.srw)
  | .rxByte => c.owner

def Bus.emit (b : Bus) (y : Sym) : Bus := { b with trace := b.trace ++ [y] }

/-- R162, R165, R166: the owner's byte. -/
def Bus.ownerByte (b : Bus) (v : Byte) (d : TxDraw) : Bus :=
  match d with
  | .acked => (b.emit (.w v .ack)).modCore fun c => { c with bnd := true, pend := .none }
  | .nacked =>
    ((b.emit (.w v .nack)).emit .p).modCore fun c =>
      { c with bnd := true, rxnack := true, pend := .none, busy := false, owner := false }
  | .lost => (b.emit .x).modCore fun c => { c with arblost := true, owner := false, pend := .none }

/-- R169: the selected slave's byte. -/
def Bus.slaveByte (b : Bus) (v : Byte) (a : Ack) : Bus :=
  (b.emit (.w v a)).modCore fun c => { c with bnd := true, rxnack := c.rxnack || a == .nack, pend := .none }

/-- R164, R168: a received byte, answered by ACKSEL. -/
def Bus.receiveByte (b : Bus) (v : Byte) : Bus :=
  (b.emit (.r v b.core.acksel)).modCore fun c => { c with data := v, bnd := true, pend := .none }

/-- R170: a stop of the remote master can reach this core. A byte that left BND = 1 and RXNACK = 0 holds it back, so that a
stall of R499 does not end by the stop R364 and R499 speak of (DEDUCED, log entry 35). -/
def BusCore.stopOk (c : BusCore) : Bool := c.sel && !c.addrmatch && (!c.bnd || c.rxnack)

/-- R170: the remote master's stop reaches a selected slave; a byte pending is abandoned. -/
def Bus.remoteStop (b : Bus) : Bus :=
  (b.emit .pRemote).modCore fun c =>
    { c with stopf := true, busy := false, sel := false, sel10 := false, pend := .none }

/-- R167: the address match itself. -/
def Bus.matched (b : Bus) (d : WireDir) : Bus :=
  (b.emit (.am d)).modCore fun c =>
    { c with addrmatch := true, srw := d == .read, busy := true, sel := true, sel10 := c.addr10 }

/-- R167, R115: an address phase of the remote master. One that is for another device changes nothing but the
remembered 10-bit selection (DEDUCED, log entry 8). -/
def Bus.addressPhase (b : Bus) (m : Option WireDir) : Bus :=
  if b.core.mstr = false ∧ b.core.addrmatch = false ∧ b.core.bnd = false then
    match m with
    | .some d => b.matched d
    | .none => b.modCore fun c => { c with sel10 := false }
  else b

/-- R167, R168, R170, R173: what the remote master does while nothing of this core is pending. -/
def Bus.remote (b : Bus) (d : Remote) : Bus :=
  match d with
  | .quiet => b
  | .address v => b.addressPhase (b.core.matchAddress v)
  | .address10 v w => b.addressPhase (b.core.matchAddress10 v w)
  | .write v =>
    if b.core.sel ∧ b.core.srw = false ∧ b.core.addrmatch = false ∧ b.core.bnd = false then b.receiveByte v else b
  | .stop => if b.core.stopOk then b.remoteStop else b
  | .foreignStop =>
    if b.core.mstr ∧ b.core.owner = false ∧ b.core.busy then b.modCore fun c => { c with busy := false } else b

/-- `BusStep(i)` (R158): completes what is pending, or delivers what a remote master did. -/
def Bus.busStep (b : Bus) (d : BusDraw) : Bus :=
  if b.core.moden then
    match b.core.pend with
    | .none => b.remote d.remote
    | .start =>
      if b.core.busy then b
      else (b.emit .s).modCore fun c => { c with busy := true, owner := true, startf := true, pend := .none }
    | .rstart => (b.emit .sr).modCore fun c => { c with startf := true, pend := .none }
    | .stop => (b.emit .p).modCore fun c => { c with busy := false, owner := false, pend := .none }
    | .txByte v =>
      if b.core.owner then b.ownerByte v d.tx
      else if b.core.stopOk ∧ d.remote = .stop then b.remoteStop
      else if b.core.sel ∧ b.core.srw then b.slaveByte v d.ack
      else b
    | .rxByte => if b.core.owner then b.receiveByte d.rxbyte else b
  else b

def State.busStep (s : State) (i : BusId) (d : BusDraw) : State := s.modBus i (·.busStep d)

end Sys2Proof.Machine
end

