-- ==== Sys2Proof/Machine/Primitives.lean ====
section
/-! DEFINITION. Primitives.lean: the register-level primitives (40_primitives.md R140 to R156), each on the core alone,
and the command that issues it. -/

namespace Sys2Proof.Machine

/-- P_START (R141). -/
def BusCore.start (c : BusCore) : BusCore :=
  if c.moden && c.mstr && !c.owner then { c with pend := .start } else c

/-- P_RSTART (R142). -/
def BusCore.rstart (c : BusCore) : BusCore :=
  if c.moden && c.owner then { c with pend := .rstart } else c

/-- P_STOP (R143). -/
def BusCore.stop (c : BusCore) : BusCore :=
  if c.moden && c.owner then { c with pend := .stop } else c

/-- P_SET_DIR (R144). -/
def BusCore.setDir (c : BusCore) (d : Dir) : BusCore := { c with dir := d }

/-- P_SET_ACK (R145). -/
def BusCore.setAck (c : BusCore) (a : Ack) : BusCore := { c with acksel := a }

/-- P_WRITE_DATA (R148). -/
def BusCore.writeData (c : BusCore) (b : Byte) : BusCore :=
  { c with
    data := b
    bnd := false
    pend := if c.moden && c.dir == .tx && (c.owner || (c.sel && c.srw)) then .txByte b else c.pend }

/-- P_READ_DATA (R149), the core after it; the value read is the DATA before it. -/
def BusCore.readData (c : BusCore) : BusCore :=
  { c with
    bnd := false
    pend := if c.moden && c.mstr && c.owner && c.dir == .rx then .rxByte else c.pend }

/-- P_READ_LAST (R150), the core after it: the direction changes first, so nothing is started. -/
def BusCore.readLast (c : BusCore) : BusCore := { c with dir := .tx, bnd := false }

/-- P_SET_DIV (R153): ignored while the module is enabled. -/
def BusCore.setDiv (c : BusCore) (sample : Byte) (step : BitVec 4) : BusCore :=
  if c.moden then c else { c with sample := sample, step := step }

/-- P_MODULE_ENABLE (R154). -/
def BusCore.enable (c : BusCore) : BusCore := { c with moden := true }

/-- U7: a divider setting outside the ranges of R7. -/
def divOutOfRange (p : Params) (sample : Byte) (step : BitVec 4) : Bool :=
  decide (sample < p.sampleMin) || decide (p.sampleMax < sample) || decide (step < p.stepMin)
    || decide (p.stepMax < step)

/-- A primitive issued from the port: SUCCESS once admitted (R140). -/
def primitive (i : BusId) (f : BusCore → BusCore) (s : State) : Res :=
  admitted .prim i s fun s => .next ((s.modCore i f).setRet .success)

def execPStart (i : BusId) (s : State) : Res := primitive i .start s

def execPRstart (i : BusId) (s : State) : Res := primitive i .rstart s

def execPStop (i : BusId) (s : State) : Res := primitive i .stop s

def execPSetDir (i : BusId) (d : Dir) (s : State) : Res := primitive i (·.setDir d) s

def execPSetAck (i : BusId) (a : Ack) (s : State) : Res := primitive i (·.setAck a) s

def execPWriteData (i : BusId) (b : Byte) (s : State) : Res := primitive i (·.writeData b) s

/-- R149: OUT0 receives the byte that was in DATA. -/
def execPReadData (i : BusId) (s : State) : Res :=
  admitted .prim i s fun s =>
    .next (((s.modCore i .readData).setOut0 ((s.core i).data.setWidth 32)).setRet .success)

/-- R150. -/
def execPReadLast (i : BusId) (s : State) : Res :=
  admitted .prim i s fun s =>
    .next (((s.modCore i .readLast).setOut0 ((s.core i).data.setWidth 32)).setRet .success)

def execPClearFlag (i : BusId) (f : Sticky) (s : State) : Res := primitive i (·.clearFlag f) s

def execPIntEnable (i : BusId) (src : IntSrc) (s : State) : Res := primitive i (·.setEnable src true) s

def execPIntDisable (i : BusId) (src : IntSrc) (s : State) : Res := primitive i (·.setEnable src false) s

/-- R153; U7 where the write would take effect. -/
def execPSetDiv (i : BusId) (sample : Byte) (step : BitVec 4) (s : State) : Res :=
  admitted .prim i s fun s =>
    if (s.core i).moden = false ∧ divOutOfRange s.params sample step then
      .refused (.dividerOutOfRange sample step)
    else .next ((s.modCore i (·.setDiv sample step)).setRet .success)

def execPModuleEnable (i : BusId) (s : State) : Res := primitive i .enable s

def execPModuleDisable (i : BusId) (s : State) : Res := primitive i .disable s

/-- R147: OUT0 receives STATUS. -/
def execPGetFlags (i : BusId) (s : State) : Res :=
  admitted .prim i s fun s => .next ((s.setOut0 (s.core i).statusWord).setRet .success)

def execPSetDmareq (i : BusId) (d : Dir) (en : Bool) (s : State) : Res := primitive i (·.setDmareq d en) s

end Sys2Proof.Machine
end

