-- ==== Sys2Proof/Machine/Sequencer.lean ====
section
/-! DEFINITION. Sequencer.lean: the transaction sequencer (41_sequencer.md R190 to R202). A routine answers its status
word and the state it leaves; nothing is dispatched inside it (R191). -/

namespace Sys2Proof.Machine

/-- `PEND <- NONE` (R190): a poll that gives up cancels the request. -/
def BusCore.cancel (c : BusCore) : BusCore := { c with pend := .none }

/-- `poll(i, cond, ceiling)` (R190); the ceiling enters no result (R16). A bus step that cannot be taken (R160) is
withheld (DEDUCED, log entry 6). -/
def poll (i : BusId) (cond : BusCore → Bool) (s : State) : Bool × State :=
  if cond (s.core i) then (true, s)
  else if (s.core i).pend = .none then (false, s)
  else
    match s.drawPoll.1 with
    | .withheld => (false, s.drawPoll.2.modCore i .cancel)
    | .taken d =>
      if (s.core i).canComplete then
        (cond ((s.drawPoll.2.busStep i d).core i), s.drawPoll.2.busStep i d)
      else (false, s.drawPoll.2.modCore i .cancel)

/-- The start and repeated start of R192 and R193 differ in the request and in the flags awaited. A request the core does not
take leaves what was pending before, which may complete in the poll and raise the flags awaited: then the status is 0, as the
pseudocode with R190 says, and not TO_START as the corner cases say (DEDUCED, log entry 36). -/
def seqCondition (i : BusId) (request : BusCore → BusCore) (cond : BusCore → Bool) (s : State) : Word × State :=
  let r := poll i cond (s.modCore i fun c => request (c.clearFlag .startf))
  if r.1 then (0, r.2.modCore i (·.clearFlag .startf)) else (toStart, r.2)

/-- SEQ_START (R192). -/
def seqStart (i : BusId) (s : State) : Word × State :=
  seqCondition i .start (fun c => c.startf && c.busy) s

/-- SEQ_RSTART (R193). -/
def seqRstart (i : BusId) (s : State) : Word × State :=
  seqCondition i .rstart (fun c => c.startf) s

/-- SEQ_WAIT_READY (R194). -/
def seqWaitReady (i : BusId) (s : State) : Word × State :=
  let r := poll i BusCore.ready s
  (if r.1 then 0 else toReady, r.2)

/-- The end of SEQ_TXBYTE (R195), after its byte-done poll answered `ok`. An RXNACK left from before the call makes it NACK also
where this byte was acknowledged and the core still owns the bus, as the pseudocode says (DEDUCED against the corner case of R195
and R118, log entry 37). -/
def seqTxDone (i : BusId) (ok : Bool) (s : State) : Word × State :=
  if (s.core i).arblost then (stArbLost, s.modCore i (·.clearFlag .arblost))
  else if ok = false then (toByte, s)
  else if (s.core i).rxnack then (stNack, s.modCore i fun c => (c.clearFlag .rxnack).clearFlag .bnd)
  else (0, s.modCore i (·.clearFlag .bnd))

/-- SEQ_TXBYTE (R195). A selected slave transmitter has no ownership, and its byte goes on the wire all the same, as the
pseudocode says through R148 and R169 (DEDUCED against the corner case of R195, log entry 33). An ARBLOST left from before the
call ends it with ARBLOST, as the pseudocode says, also where the corner case says TO_BYTE (DEDUCED, log entry 37). -/
def seqTxByte (i : BusId) (b : Byte) (s : State) : Word × State :=
  let r := seqWaitReady i s
  if r.1 ≠ 0 then r
  else
    let p := poll i (fun c => c.bnd || c.arblost) (r.2.modCore i (·.writeData b))
    seqTxDone i p.1 p.2

/-- SEQ_STOP (R196). -/
def seqStop (i : BusId) (s : State) : Word × State :=
  let r := poll i (fun c => !c.busy) (s.modCore i .stop)
  (if r.1 then 0 else toStop, r.2)

/-- Goes on with the next step of a sequence when the status so far is 0 (R200). -/
def seqThen (r : Word × State) (f : State → Word × State) : Word × State :=
  if r.1 = 0 then f r.2 else r

/-- The address bytes of R113 after the start. -/
def seqAddressBytes (i : BusId) (a : BitVec 10) (addr10 : Bool) (d : WireDir) (s : State) : Word × State :=
  if addr10 = false then seqTxByte i (ab7 a d) s
  else
    seqThen (seqThen (seqTxByte i (pfx a .write) s) (seqTxByte i (lowByte a))) fun s =>
      match d with
      | .write => (0, s)
      | .read => seqThen (seqRstart i s) (seqTxByte i (pfx a .read))

/-- SEQ_ADDRESS (R200). -/
def seqAddress (i : BusId) (d : WireDir) (s : State) : Word × State :=
  seqThen (if (s.core i).owner then seqRstart i s else seqStart i s) fun t =>
    seqAddressBytes i (s.m i).slaveAddr (s.m i).addr10 d (t.modCore i (·.setDir .tx))

/-- A routine issued from the port: its status word in RET (R191, R202). -/
def sequencer (k : OpClass) (i : BusId) (f : State → Word × State) (s : State) : Res :=
  admitted k i s fun s => .next ((f s).2.setRetWord (f s).1)

def execSeqStart (i : BusId) (s : State) : Res := sequencer .seq i (seqStart i) s

def execSeqRstart (i : BusId) (s : State) : Res := sequencer .seq i (seqRstart i) s

def execSeqWaitReady (i : BusId) (s : State) : Res := sequencer .seq i (seqWaitReady i) s

def execSeqTxByte (i : BusId) (b : Byte) (s : State) : Res := sequencer .seq i (seqTxByte i b) s

def execSeqStop (i : BusId) (s : State) : Res := sequencer .seq i (seqStop i) s

def execSeqAddress (i : BusId) (d : WireDir) (s : State) : Res := sequencer .seqAddress i (seqAddress i d) s

end Sys2Proof.Machine
end

