-- ==== Sys2Proof/Machine/Transport.lean ====
section
/-! DEFINITION. Transport.lean: the interrupt and DMA transport controller (45_transport.md): the sources of a master,
the five calls on the DMA collaborator, and the channel's own step. -/

namespace Sys2Proof.Machine

/-- `TransportArm(i)` (R351): the four flags cleared, then the three sources enabled. -/
def BusCore.transportArm (c : BusCore) : BusCore :=
  ((((((c.clearFlag .startf).clearFlag .bnd).clearFlag .rxnack).clearFlag .arblost).setEnable .nackie true).setEnable
    .arbie true).setEnable .bndie true

/-- Both DMA requests of the core off. -/
def BusCore.dmareqOff (c : BusCore) : BusCore := (c.setDmareq .tx false).setDmareq .rx false

/-- `TransportDisarm(i)` (R353). -/
def BusCore.transportDisarm (c : BusCore) : BusCore :=
  (((c.setEnable .bndie false).setEnable .nackie false).setEnable .arbie false).dmareqOff

/-- The channel is moving bytes, or an event of it is pending. -/
def DmaChan.live (d : DmaChan) : Bool := d.active || d.done || d.err

/-! ## The collaborator (R357, R359) -/

/-- `DmaConfigure` (R357). -/
def dmaConfigure (c : Chan) (src dst : Endpoint) (count : Word) (dir : DmaDir) (s : State) : State :=
  (s.modChan c fun d =>
    { d with src := src, dst := dst, remaining := count, dir := dir, active := false, done := false, err := false }).logDma
    (.configure c)

/-- `DmaInstall` (R357). -/
def dmaInstall (c : Chan) (i : BusId) (s : State) : State :=
  (s.modChan c fun d => { d with owner := .some i }).logDma (.installCallback c)

/-- `DmaStart` (R357). -/
def dmaStart (c : Chan) (s : State) : State := (s.modChan c fun d => { d with active := true }).logDma (.start c)

/-- `DmaStop` (R359). -/
def dmaStop (c : Chan) (s : State) : State :=
  (s.modChan c fun d => { d with active := false, done := false, err := false }).logDma (.stop c)

/-- `DmaStop` of the bound channel when the transport is DMA: step (2) of every exit (R91, R359). -/
def dmaStopIf (x : Xfer) (s : State) : State :=
  if x.transport = .dma then dmaStop x.dmaChannel s else s

/-- The bulk part of a data phase (R355, R364): BNDIE off, the channel configured, installed, its request enabled, then
started. -/
def dmaBulk (i : BusId) (c : Chan) (src dst : Endpoint) (count : Word) (dir : DmaDir) (req : Dir) (s : State) : State :=
  dmaStart c ((dmaInstall c i (dmaConfigure c src dst count dir (s.modCore i (·.setEnable .bndie false)))).modCore i
    (·.setDmareq req true))

/-! ## The channel's own step (R358) -/

/-- One byte of memory handed to the data register. -/
def dmaPush (i : BusId) (c : Chan) (a : Word) (s : State) : State :=
  (s.modChan c fun d => { d with src := .mem (a + 1) }).modCore i (·.writeData (s.load a))

/-- One byte of the data register placed into memory. -/
def dmaPull (i : BusId) (c : Chan) (a : Word) (s : State) : State :=
  ((s.modChan c fun d => { d with dst := .mem (a + 1) }).store a (s.core i).data).modCore i .readData

/-- The count after a served request; at 0 the channel is done. -/
def DmaChan.served (d : DmaChan) : DmaChan :=
  { d with
    remaining := d.remaining - 1
    active := d.active && d.remaining - 1 != 0
    done := d.done || d.remaining - 1 == 0 }

/-- The completed byte went the way the channel moves bytes: of an addressed slave SRW says which way that was. A byte
the other way is served by nothing and the bus stalls (R364, R499; DEDUCED, log entry 31). -/
def BusCore.rightWay (c : BusCore) (d : DmaDir) : Bool := c.mstr || c.srw == (d == .mem2dev)

/-- `DmaStep(c)` (R358), where it is enabled; otherwise nothing happens. The memory end is the one `dir` names; a
channel whose ends do not fit its direction serves nothing (DESIGN CHOICE, log entry 5). -/
def dmaServe (c : Chan) (s : State) : State :=
  let d := s.chan c
  match d.owner with
  | .none => s
  | .some i =>
    if d.active && (s.core i).dreq && (s.core i).rightWay d.dir then
      match d.dir, d.src, d.dst with
      | .mem2dev, .mem a, _ => (dmaPush i c a s).modChan c .served
      | .mem2dev, .data _, _ => s
      | .dev2mem, _, .mem a => (dmaPull i c a s).modChan c .served
      | .dev2mem, _, .data _ => s
    else s

/-- The channel error the environment may draw while the channel is active (R358). -/
def dmaFail (c : Chan) (s : State) : State :=
  if (s.chan c).active then s.modChan c fun d => { d with active := false, err := true } else s

end Sys2Proof.Machine
end

