-- ==== Sys2Proof/Machine/Master.lean ====
section
/-! DEFINITION. Master.lean: the master state machine (42_master.md) with its kick and DMA completion
(45_transport.md R355, R360 to R362). -/

namespace Sys2Proof.Machine

def State.modMX (s : State) (i : BusId) (f : Xfer → Xfer) : State := s.modM i (·.modX f)

/-- `if m.blocking = 1 then SemPost(i)`. -/
def Bus.postM (b : Bus) : Bus := if b.m.blocking then b.semPost else b

/-- `idle <- 1; dmatrace += idle(i); phase <- IDLE`. -/
def masterIdle (i : BusId) (s : State) : State :=
  ((s.modMX i fun x => { x with idle := true }).logDma (.idle i)).setPhase i .idle

/-- The common tail of the error exit and the abort: result, buffers, idle, post (R246, R250). After a NACK too `txRemaining`
is 0, as the pseudocode of R246 says and R32 (a) asks of an unset buffer (DEDUCED against the corner case of R239, log
entry 34). -/
def masterClose (i : BusId) (code : Result) (s : State) : State :=
  (masterIdle i (s.modMX i fun x => { x.unsetBufs with lastResult := code })).modBus i .postM

/-- `if st != 0 and m.lastResult = BUSY then m.lastResult <- ERROR` (R242). -/
def Xfer.stopFailed (x : Xfer) (st : Word) : Xfer :=
  if st ≠ 0 ∧ x.lastResult = .busy then { x with lastResult := .error } else x

/-- The optional stop of R242. -/
def masterEndStop (i : BusId) (s : State) : State :=
  if (s.m i).stopOnCompletion then
    let r := seqStop i (s.setPhase i .stop)
    r.2.modMX i (·.stopFailed r.1)
  else s

/-- `if lastResult = BUSY then lastResult <- SUCCESS` (R35). -/
def Xfer.settleResult (x : Xfer) : Xfer := if x.lastResult = .busy then { x with lastResult := .success } else x

/-- `MasterEnd(i)` (R242). -/
def masterEnd (i : BusId) (s : State) : State :=
  let t := (masterIdle i ((masterEndStop i (s.modCore i .transportDisarm)).modMX i fun x =>
    x.unsetBufs.settleResult)).modBus i .postM
  t.notify i (if (t.m i).lastResult = .success then .endOfTransfer else .error)

/-- `MasterErrorExit(i, code)` (R246). -/
def masterErrorExit (i : BusId) (code : Result) (s : State) : State :=
  let t := dmaStopIf (s.m i).toXfer ((s.setPhase i .error).modCore i .transportDisarm)
  let u := if code = .error ∧ (t.core i).owner then (seqStop i t).2 else t
  (masterClose i code u).notify i .error

/-- The abort path from TransportDisarm on (R250, R91). -/
def masterAbort (i : BusId) (s : State) : State :=
  let t := dmaStopIf (s.m i).toXfer (s.modCore i .transportDisarm)
  let u := if (t.core i).owner then (seqStop i t).2 else t
  masterClose i .aborted u

/-! ## Data phase -/

/-- `MasterSendStep(i)` (R234). -/
def masterSendStep (i : BusId) (s : State) : State :=
  if (s.m i).txRemaining ≠ 0 then
    (s.modMX i (·.advanceTx 1)).modCore i (·.writeData (s.load (bufAddr (s.m i).txBuf)))
  else masterEnd i (s.modCore i (·.clearFlag .bnd))

/-- The arrived byte goes to `rxBuf + rxCursor` (R73). -/
def masterStore (i : BusId) (b : Byte) (s : State) : State :=
  (s.store (bufAddr (s.m i).rxBuf + (s.m i).rxCursor) b).modMX i (·.advanceRx 1)

/-- `total` of R236. -/
def Xfer.rxTotal (x : Xfer) : Word := x.rxCursor + x.rxRemaining

/-- `MasterRecvStep(i)` (R236). -/
def masterRecvStep (i : BusId) (s : State) : State :=
  let m := s.m i
  if m.rxCursor + 1 = m.rxTotal then
    masterEnd i (masterStore i (s.core i).data (s.modCore i .readLast))
  else
    masterStore i (s.core i).data
      (s.modCore i fun c => (c.setAck (if m.rxCursor + 2 = m.rxTotal then .nack else .ack)).readData)

/-- `TransportKick(i)` for a send of `n` bytes (R355). -/
def masterKickSend (i : BusId) (n : Word) (s : State) : State :=
  let m := s.m i
  masterSendStep i
    (if m.transport = .dma ∧ 2 ≤ n then
      dmaBulk i m.dmaChannel (.mem (bufAddr m.txBuf + 1)) (.data i) (n - 1) .mem2dev .tx s
    else s)

/-- `TransportKick(i)` for a receive of `n` bytes (R355): the dummy read starts the first byte. -/
def masterKickRecv (i : BusId) (n : Word) (s : State) : State :=
  let m := s.m i
  (if m.transport = .dma ∧ 3 ≤ n then
      dmaBulk i m.dmaChannel (.data i) (.mem (bufAddr m.rxBuf)) (n - 2) .dev2mem .rx s
    else s).modCore i fun c => ((c.setDir .rx).setAck (if n = 1 then .nack else .ack)).readData

/-! ## Starting (R227) -/

/-- The kind of a call (R220), as the direction of its data. -/
def wireOf : Dir → WireDir
  | .tx => .write
  | .rx => .read

/-- The fields the start command populates (R227). -/
def MCtx.begin (m : MCtx) (kind : Dir) (buf len : Word) (stop : Bool) : MCtx :=
  let x := m.toXfer
  { m with
    toXfer :=
      { (match kind with
          | .tx => (x.unsetRx.setTx buf len).holdTx buf len
          | .rx => (x.unsetTx.setRx buf len).holdRx buf len) with
        rxCursor := 0, lastResult := .busy, idle := false }
    stopOnCompletion := stop }

/-- `MasterBegin` (R227): the result of the command and the state it leaves. -/
def masterBegin (i : BusId) (kind : Dir) (buf len : Word) (stop : Bool) (s : State) : Result × State :=
  let r := seqAddress i (wireOf kind) (((s.modM i (·.begin kind buf len stop)).modCore i .transportArm).setPhase i .address)
  if r.1 ≠ 0 then
    let t := masterErrorExit i (classify r.1) r.2
    ((t.m i).lastResult, t)
  else
    let t := r.2.setPhase i .data
    (.success, match kind with
      | .tx => masterKickSend i len t
      | .rx => masterKickRecv i len t)

/-- The non-blocking starts (R225, R230). -/
def masterStart (i : BusId) (kind : Dir) (stop : Bool) (s : State) : Res :=
  admitted .mStart i s fun s => withBuffer s fun buf len =>
    let r := masterBegin i kind buf len stop s
    .next (r.2.setRet r.1)

/-- The issue part of the blocking starts (46_blocking.md R382, R383): suspended with the timeout of ARG2, or resumed
at once with the failure of the address phase. -/
def masterStartBlk (i : BusId) (kind : Dir) (stop : Bool) (s : State) : Res :=
  admitted .mStart i s fun s => withBuffer s fun buf len =>
    let r := masterBegin i kind buf len stop ((s.modMX i fun x => { x with blocking := true }).modBus i .semClear)
    if r.1 = .success then .next (r.2.modBus i fun b => { b with wait := .some s.port.arg2 })
    else .next ((r.2.modMX i fun x => { x with blocking := false }).setRet r.1)

def execMSend (i : BusId) (stop : Bool) (s : State) : Res := masterStart i .tx stop s

def execMRecv (i : BusId) (stop : Bool) (s : State) : Res := masterStart i .rx stop s

def execMSendBlk (i : BusId) (stop : Bool) (s : State) : Res := masterStartBlk i .tx stop s

def execMRecvBlk (i : BusId) (stop : Bool) (s : State) : Res := masterStartBlk i .rx stop s

/-- R250. -/
def execMAbort (i : BusId) (s : State) : Res :=
  admitted .mAbort i s fun s =>
    .next ((if (s.m i).idle then s else masterAbort i s).setRet .success)

/-- `get-remaining-bytes` (R357): the count, and the call on `dmatrace`. -/
def dmaRemaining (c : Chan) (s : State) : Word × State := ((s.chan c).remaining, s.logDma (.getRemaining c))

/-- The remaining count the context holds for its kind (R252). -/
def Xfer.masterRemaining (x : Xfer) : Word := if x.txBuf.isSome then x.txRemaining else x.rxRemaining

/-- `MasterDmaRemaining(i)` (R362). -/
def masterDmaRemaining (i : BusId) (s : State) : Word × State :=
  let m := s.m i
  let d := s.chan m.dmaChannel
  if d.owner = .some i ∧ (d.active ∨ d.done) then
    let r := dmaRemaining m.dmaChannel s
    (if m.txBuf.isSome then r.1 else r.1 + 2, r.2)
  else (m.toXfer.masterRemaining, s)

/-- R252. -/
def execMGetStatus (i : BusId) (s : State) : Res :=
  admitted .mStatus i s fun s =>
    let m := s.m i
    let r := if m.idle then (0, s)
      else if m.transport = .dma then masterDmaRemaining i s
      else (m.toXfer.masterRemaining, s)
    .next ((r.2.giveOut0 i r.1).setRet m.lastResult)

/-! ## Events of a master -/

/-- EV_NACK (R239). -/
def masterNack (i : BusId) (s : State) : State :=
  masterErrorExit i .receivedNack (s.modCore i fun c => (c.clearFlag .rxnack).clearFlag .bnd)

/-- EV_ARBLOST (R240). -/
def masterArbLost (i : BusId) (s : State) : State :=
  masterErrorExit i .arbitrationLost (s.modCore i (·.clearFlag .arblost))

/-- EV_BYTE (R234, R236), by the kind of the call in flight (R220). -/
def masterByte (i : BusId) (s : State) : State :=
  if (s.m i).txBuf.isSome then masterSendStep i s else masterRecvStep i s

/-- R449: flags that are no business of a master are cleared where they are enabled (DEDUCED, log entry 28). -/
def BusCore.dropSlaveFlags (c : BusCore) : BusCore :=
  { c with
    addrmatch := c.addrmatch && !c.addrie
    stopf := c.stopf && !c.stopie }

/-- The master handler (R233, R449; DEDUCED, log entry 27). -/
def masterHandler (i : BusId) (s : State) : State :=
  let t := s.modCore i .dropSlaveFlags
  let c := t.core i
  if (t.m i).idle then t.modCore i fun c => ((c.clearFlag .bnd).clearFlag .rxnack).clearFlag .arblost
  else if c.arblost then masterArbLost i t
  else if c.rxnack then masterNack i t
  else if c.bnd && c.bndie then masterByte i t
  else t

/-- The counts of R360 once the channel has moved its part. -/
def Xfer.dmaSettled (x : Xfer) : Xfer :=
  if x.txBuf.isSome then x.advanceTx x.txRemaining else x.advanceRx (x.rxRemaining - 2)

/-- EV_DMA_DONE of a master (R360). -/
def masterDmaDone (i : BusId) (c : Chan) (s : State) : State :=
  let t := s.modChan c fun d => { d with done := false }
  if (t.m i).idle then t
  else ((t.modCore i .dmareqOff).modMX i .dmaSettled).modCore i (·.setEnable .bndie true)

/-- EV_DMA_ERROR of a master (R361). -/
def masterDmaError (i : BusId) (c : Chan) (s : State) : State :=
  let t := s.modChan c fun d => { d with err := false }
  if (t.m i).idle then t else masterErrorExit i .error t

end Sys2Proof.Machine
end

