-- ==== Sys2Proof/Machine/Slave.lean ====
section
/-! DEFINITION. Slave.lean: the slave state machine (43_slave.md) with its DMA variant (45_transport.md R361, R364 to
R366) and the blocking slave commands (46_blocking.md R385, R387). The callbacks of a slave may lend buffers (R440),
so what runs through one answers an outcome: a lend the spec refuses stops the step. -/

namespace Sys2Proof.Machine

def State.modSX (s : State) (i : BusId) (f : Xfer → Xfer) : State := s.modS i (·.modX f)

/-! ## Lending (R281, R282) -/

/-- Buffer, count, cursor and `dmaDir` of R281 to R283 and R285. -/
def SCtx.lend (x : SCtx) (d : Dir) (buf len : Word) : SCtx :=
  match d with
  | .tx => { x.modX (·.setTx buf len) with dmaDir := .tx }
  | .rx => { x.modX (·.setRx buf len) with dmaDir := .rx }

/-- S_SET_TX_BUF or S_SET_RX_BUF: the buffer is held until it is replaced, consumed, or a one-shot transfer ends (R490;
DESIGN CHOICE, log entry 21). -/
def SCtx.lendSet (x : SCtx) (d : Dir) (buf len : Word) : SCtx :=
  match d with
  | .tx => { x.lend .tx buf len with txSet := .some ⟨buf, len⟩ }
  | .rx => { x.lend .rx buf len with rxSet := .some ⟨buf, len⟩ }

/-- S_SEND or S_RECV: the buffer is held until the context is idle again (R490; DESIGN CHOICE, log entry 21). -/
def SCtx.lendStart (x : SCtx) (d : Dir) (buf len : Word) : SCtx :=
  match d with
  | .tx => { (x.lend .tx buf len).modX (·.holdTx buf len) with txSet := .none }
  | .rx => { (x.lend .rx buf len).modX (·.holdRx buf len) with rxSet := .none }

/-- U11: the instance's channel is moving the old buffer. -/
def channelMoving (i : BusId) (s : State) : Bool :=
  (s.s i).transport == .dma && (s.chan (s.s i).dmaChannel).active && (s.chan (s.s i).dmaChannel).owner == .some i

/-- The effect of S_SET_TX_BUF or S_SET_RX_BUF past the length test and U4. At an address match the channel moves nothing
any more, and a buffer may be lent (`atMatch`, R504). -/
def slaveLend (i : BusId) (atMatch : Bool) (d : Dir) (buf len : Word) (s : State) : Res :=
  if channelMoving i s && !atMatch then .refused (.bufferMoving i) else .next (s.modS i (·.lendSet d buf len))

/-- The effect of one of the two commands issued from inside a callback (R440): a bad length changes nothing. -/
def callbackLend (i : BusId) (atMatch : Bool) (d : Dir) (l : Lend) (s : State) : Res :=
  if s.badLen l.len then .next s
  else if pastEnd l.buf l.len then .refused (.bufferPastEnd l.buf l.len)
  else slaveLend i atMatch d l.buf l.len s

/-- What the callback draw lends, applied at once (R440; DESIGN CHOICE, log entry 15). -/
def applyCb (i : BusId) (atMatch : Bool) (d : CbDraw) (s : State) : Res :=
  match d with
  | .nothing => .next s
  | .setTx t => callbackLend i atMatch .tx t s
  | .setRx r => callbackLend i atMatch .rx r s
  | .setTxRx t r => (callbackLend i atMatch .tx t s).bind (callbackLend i atMatch .rx r)
  | .setRxTx r t => (callbackLend i atMatch .rx r s).bind (callbackLend i atMatch .tx t)

/-- `callback(i, e)` for the events on which a slave's callback may lend: ADDRESS_MATCH, TX_EMPTY, ERROR (R440). -/
def slaveCallback (i : BusId) (e : Event) (s : State) : Res :=
  match (s.ctx i).cb with
  | .none => .next s
  | .some _ =>
    let r := (s.notify i e).drawCb
    applyCb i (e == .addressMatch) r.1 r.2

/-! ## Arming (R284) -/

/-- `SlaveArm(i)`. -/
def BusCore.slaveArm (c : BusCore) : BusCore :=
  ((((((c.clearFlag .stopf).clearFlag .rxnack).clearFlag .bnd).setEnable .addrie true).setEnable .stopie true).setEnable
    .nackie true).setEnable .bndie true

/-- `SlaveDisarm(i)`. -/
def BusCore.slaveDisarm (c : BusCore) : BusCore :=
  ((((c.setEnable .addrie false).setEnable .stopie false).setEnable .nackie false).setEnable .bndie false).dmareqOff

/-! ## Commands -/

/-- S_SET_TX_BUF and S_SET_RX_BUF. -/
def slaveSetBuf (i : BusId) (d : Dir) (s : State) : Res :=
  admitted .sLend i s fun s => withBuffer s fun buf len =>
    (slaveLend i false d buf len s).bind fun t => .next (t.setRet .success)

def execSSetTxBuf (i : BusId) (s : State) : Res := slaveSetBuf i .tx s

def execSSetRxBuf (i : BusId) (s : State) : Res := slaveSetBuf i .rx s

/-- The channel serves the bytes of the instance's transfer, or has an event pending that hands them back. -/
def channelServes (i : BusId) (s : State) : Bool :=
  (s.s i).transport == .dma && (s.chan (s.s i).dmaChannel).live && (s.chan (s.s i).dmaChannel).owner == .some i

/-- `SlaveArm(i)` of S_SEND and S_RECV; "in DMA transport BNDIE is switched off only while the channel moves bytes" (R284,
R350, R354). -/
def slaveArmBeside (i : BusId) (s : State) : State :=
  s.modCore i fun c => c.slaveArm.setEnable .bndie (!channelServes i s)

/-- The body of S_SEND and S_RECV once admitted (R283, R285). On a slave in progress whose channel moves the old buffer it
runs all the same, which R504 leaves open (DEDUCED, log entry 32). -/
def slaveAccept (i : BusId) (d : Dir) (buf len : Word) (s : State) : State :=
  let t := s.modS i fun x => (x.lendStart d buf len).modX fun y => { y with lastResult := .busy, idle := false }
  let u := if (t.s i).inProgress then t else t.setPhase i .armed
  if (u.s i).listening then u else slaveArmBeside i u

def slaveStart (i : BusId) (d : Dir) (s : State) : Res :=
  admitted .sStart i s fun s => withBuffer s fun buf len =>
    .next ((slaveAccept i d buf len s).setRet .success)

def execSSend (i : BusId) (s : State) : Res := slaveStart i .tx s

def execSRecv (i : BusId) (s : State) : Res := slaveStart i .rx s

/-- The issue part of S_SEND_BLK and S_RECV_BLK (R385, R387). -/
def slaveStartBlk (i : BusId) (d : Dir) (s : State) : Res :=
  admitted .sStart i s fun s => withBuffer s fun buf len =>
    .next ((slaveAccept i d buf len ((s.modSX i fun x => { x with blocking := true }).modBus i .semClear)).modBus i
      fun b => { b with wait := .some s.port.arg2 })

def execSSendBlk (i : BusId) (s : State) : Res := slaveStartBlk i .tx s

def execSRecvBlk (i : BusId) (s : State) : Res := slaveStartBlk i .rx s

/-- `if s.idle = 0 then s.idle <- 1; dmatrace += idle(i)` (R310). -/
def slaveIdle (i : BusId) (s : State) : State :=
  if (s.s i).idle then s else (s.modSX i fun x => { x with idle := true }).logDma (.idle i)

/-- `if s.blocking = 1 then SemPost(i)`. -/
def Bus.postS (b : Bus) : Bus := if b.s.blocking then b.semPost else b

def SCtx.leaveTransfer (x : SCtx) : SCtx := { x with inProgress := false }

/-- Both buffers are given back (R300, R310). -/
def SCtx.giveBack (x : SCtx) : SCtx := { x.modX (·.unsetBufs) with txSet := .none, rxSet := .none }

/-- The abort path from SlaveDisarm on (R310). -/
def slaveAbort (i : BusId) (s : State) : State :=
  let t := (dmaStopIf (s.s i).toXfer (s.modCore i .slaveDisarm)).modS i fun x =>
    (x.giveBack.modX fun y => { y with lastResult := .aborted }).leaveTransfer
  let u := ((slaveIdle i t).setPhase i .idle).modBus i .postS
  if (u.s i).listening then u.modCore i .slaveArm else u

/-- Nothing in flight (R310). -/
def SCtx.quiet (x : SCtx) : Bool := x.idle && !x.inProgress

def execSAbort (i : BusId) (s : State) : Res :=
  admitted .sAbort i s fun s =>
    .next ((if (s.s i).quiet then s else slaveAbort i s).setRet .success)

/-- The direction S_GET_STATUS reports (R312). -/
def SCtx.statusDir (x : SCtx) : Dir := if x.inProgress then x.curDir else x.dmaDir

/-- R312, R362. -/
def execSGetStatus (i : BusId) (s : State) : Res :=
  admitted .sStatus i s fun s =>
    let x := s.s i
    let r := if x.transport = .dma ∧ (s.chan x.dmaChannel).owner = .some i then
        let d := dmaRemaining x.dmaChannel s
        (match x.statusDir with
          | .tx => d.1
          | .rx => d.1 + 1, d.2)
      else
        (match x.statusDir with
          | .tx => x.txRemaining
          | .rx => x.rxRemaining, s)
    .next ((r.2.giveOut0 i r.1).setRet x.lastResult)

/-! ## Bytes -/

/-- `SlaveRecordError(i, code)` (R305). -/
def slaveRecordError (i : BusId) (code : Result) (s : State) : Res :=
  (slaveCallback i .error ((s.setPhase i .error).modSX i fun x => { x with lastResult := code })).bind fun t =>
    .next (t.setPhase i .data)

/-- The buffered byte of R291. -/
def slaveSendByte (i : BusId) (s : State) : State :=
  (s.modSX i (·.advanceTx 1)).modCore i (·.writeData (s.load (bufAddr (s.s i).txBuf)))

/-- `SlaveTxNext(i)` (R291). -/
def slaveTxNext (i : BusId) (s : State) : Res :=
  (if (s.s i).txRemaining = 0 then slaveCallback i .txEmpty s else .next s).bind fun t =>
    if (t.s i).txRemaining ≠ 0 then .next (slaveSendByte i t)
    else (slaveRecordError i .txUnderrun t).bind fun u => .next (u.modCore i (·.writeData u.params.slaveFill))

/-- EV_BYTE, slave receiving (R295). -/
def slaveRecvByte (i : BusId) (s : State) : Res :=
  let x := s.s i
  if x.rxRemaining ≠ 0 then
    .next (((s.store (bufAddr x.rxBuf + x.rxCursor) (s.core i).data).modSX i (·.advanceRx 1)).modCore i
      fun c => (c.setAck (if 1 < x.rxRemaining then .ack else .nack)).readData)
  else slaveRecordError i .rxOverrun (s.modCore i .readData)

/-- EV_NACK (R297). -/
def slaveNack (i : BusId) (s : State) : State := s.modCore i fun c => (c.clearFlag .rxnack).clearFlag .bnd

/-- A byte event while no transfer is in progress (R287): read, discarded, RXNACK cleared. -/
def slaveSpurious (i : BusId) (s : State) : State := s.modCore i fun c => c.readData.clearFlag .rxnack

/-! ## DMA variant -/

/-- The counts of R366 from what the channel has left to move of the part it was configured for. No count goes below 0
(R15): where the context counts less than the channel, its counts stay (DEDUCED, log entry 13). -/
def SCtx.dmaSettled (x : SCtx) (left : Word) : SCtx :=
  match x.unsettled with
  | .some .tx => if left ≤ x.txRemaining then x.modX (·.advanceTx (x.txRemaining - left)) else x
  | .some .rx => if left < x.rxRemaining then x.modX (·.advanceRx (x.rxRemaining - 1 - left)) else x
  | .none => x

/-- `SlaveDmaSettle(i)` (R366). -/
def slaveDmaSettle (i : BusId) (s : State) : State :=
  let c := (s.s i).dmaChannel
  let d := s.chan c
  if d.owner = .some i then
    (s.modS i fun x => { x.dmaSettled d.remaining with unsettled := .none }).modChan c fun d => { d with remaining := 0, owner := .none }
  else s

/-- `SlaveDmaEnd(i)` (R366; the reading of its first line is DEDUCED, log entry 11). -/
def slaveDmaEnd (i : BusId) (s : State) : State :=
  let t := (dmaStop (s.s i).dmaChannel (slaveDmaSettle i s)).modCore i .dmareqOff
  if (t.s i).listening then t.modCore i (·.setEnable .bndie true) else t

/-- A repeated start found the channel armed (R364): settled and stopped, its request off and BNDIE on again, as they are
while no channel moves bytes (R350, R354; DEDUCED, log entry 12). -/
def slaveDmaRestart (i : BusId) (s : State) : State :=
  if (s.chan (s.s i).dmaChannel).owner = .some i then
    (dmaStop (s.s i).dmaChannel (slaveDmaSettle i s)).modCore i fun k => k.dmareqOff.setEnable .bndie true
  else s

/-- The channel's part of a slave's data phase (R364). -/
def slaveDmaBulk (i : BusId) (src dst : Endpoint) (count : Word) (dir : DmaDir) (d : Dir) (s : State) : State :=
  (dmaBulk i (s.s i).dmaChannel src dst count dir d s).modS i fun x => { x with unsettled := .some d }

/-- `SlaveDmaArm(i)` (R364). -/
def slaveDmaArm (i : BusId) (s : State) : Res :=
  let t := slaveDmaRestart i s
  let x := t.s i
  match x.curDir with
  | .tx =>
    let u := t.modCore i (·.setDir .tx)
    slaveTxNext i
      (if 2 ≤ x.txRemaining then
        slaveDmaBulk i (.mem (bufAddr x.txBuf + 1)) (.data i) (x.txRemaining - 1) .mem2dev .tx u
      else u)
  | .rx =>
    let u := t.modCore i fun c => (c.setDir .rx).setAck (if x.rxRemaining ≠ 0 then .ack else .nack)
    .next
      (if 2 ≤ x.rxRemaining then
        slaveDmaBulk i (.data i) (.mem (bufAddr x.rxBuf + x.rxCursor)) (x.rxRemaining - 1) .dev2mem .rx u
      else u)

/-! ## Address match and stop -/

/-- The transfer the address match opens (R288). -/
def SCtx.enterTransfer (x : SCtx) : SCtx :=
  { x.modX (fun y => if x.inProgress then y else { y with lastResult := .busy }) with inProgress := true }

/-- The direction latched from SRW (R288). -/
def BusCore.srwDir (c : BusCore) : Dir := if c.srw then .tx else .rx

/-- The interrupt-driven tail of R288, after the callback. -/
def slaveBegin (i : BusId) (s : State) : Res :=
  match (s.s i).curDir with
  | .tx => slaveTxNext i (s.modCore i (·.setDir .tx))
  | .rx => .next (s.modCore i fun c => (c.setDir .rx).setAck (if (s.s i).rxRemaining ≠ 0 then .ack else .nack))

/-- EV_ADDR_MATCH (R288). -/
def slaveAddrMatch (i : BusId) (s : State) : Res :=
  let t := ((s.modCore i (·.clearFlag .addrmatch)).modS i .enterTransfer).setPhase i .data
  if (t.s i).transport = .dma then
    (slaveCallback i .addressMatch (t.modS i fun x => { x with curDir := x.dmaDir })).bind (slaveDmaArm i)
  else
    (slaveCallback i .addressMatch (t.modS i fun x => { x with curDir := (t.core i).srwDir })).bind (slaveBegin i)

/-- The teardown of one-shot mode (R300). -/
def slaveTeardown (i : BusId) (s : State) : State :=
  if (s.s i).listening then s else (s.modCore i .slaveDisarm).modS i .giveBack

/-- `if s.idle = 0 then idle, marker, post` (R300). -/
def slaveEndIdle (i : BusId) (s : State) : State :=
  if (s.s i).idle then s else (slaveIdle i s).modBus i .postS

/-- EV_STOP (R300). -/
def slaveStop (i : BusId) (s : State) : State :=
  let t := s.modCore i (·.clearFlag .stopf)
  let u := if (t.s i).transport = .dma then slaveDmaEnd i t else t
  let v := u.modS i fun x => (x.modX (·.settleResult)).leaveTransfer
  ((slaveEndIdle i (slaveTeardown i v)).setPhase i .idle).notify i .endOfTransfer

/-! ## The slave handler (R287, R449) -/

/-- A pending enabled byte event: RXNACK by NACKIE or BNDIE (R297), BND by BNDIE. -/
def BusCore.byteEvent (c : BusCore) : Bool := (c.rxnack && (c.nackie || c.bndie)) || (c.bnd && c.bndie)

/-- The byte event of R287. -/
def slaveByteEvent (i : BusId) (s : State) : Res :=
  if (s.core i).byteEvent then
    if (s.s i).inProgress = false then .next (slaveSpurious i s)
    else if (s.core i).rxnack then .next (slaveNack i s)
    else
      match (s.s i).curDir with
      | .tx => slaveTxNext i s
      | .rx => slaveRecvByte i s
  else .next s

/-- The stop of R287. R300 is run in full also where no transfer is in progress, which its corner case does not expect: a core that
stayed selected after S_ABORT can still see the stop (DEDUCED, log entry 40). -/
def slaveStopEvent (i : BusId) (s : State) : Res :=
  .next (if (s.core i).stopf && (s.core i).stopie then slaveStop i s else s)

/-- The address match of R287. On a slave whose posted caller is not yet awake it stays pending, ADDRMATCH set, until the wake,
and the next dispatch serves it: only so does nothing change `lastResult` before (R388), is a slave in no transfer after a resume
(R390 (c)) and does an aborted caller return ABORTED (R474), with no wake inside a handler (R447). DEDUCED against R287 taken
alone (log entry 29). -/
def slaveMatchEvent (i : BusId) (s : State) : Res :=
  if (s.core i).addrmatch && (s.core i).addrie && !(s.bus i).wakeDue then slaveAddrMatch i s else .next s

/-- R449: a lost arbitration is no business of a slave (DEDUCED, log entry 28). -/
def BusCore.dropMasterFlags (c : BusCore) : BusCore := { c with arblost := c.arblost && !c.arbie }

/-- Every pending enabled source once, in the order of R287, each tested in its turn (DEDUCED, log entry 10). -/
def slaveHandler (i : BusId) (s : State) : Res :=
  ((slaveByteEvent i (s.modCore i .dropMasterFlags)).bind (slaveStopEvent i)).bind (slaveMatchEvent i)

/-- EV_DMA_DONE of a slave (R365). -/
def slaveDmaDone (i : BusId) (c : Chan) (s : State) : State :=
  (slaveDmaSettle i (s.modChan c fun d => { d with done := false })).modCore i fun k =>
    k.dmareqOff.setEnable .bndie true

/-- EV_DMA_ERROR of a slave (R361), BNDIE enabled only after the request is disabled (R354; DEDUCED, log entry 12). -/
def slaveDmaError (i : BusId) (c : Chan) (s : State) : Res :=
  slaveRecordError i .error
    ((dmaStop c (slaveDmaSettle i (s.modChan c fun d => { d with err := false }))).modCore i fun k =>
      k.dmareqOff.setEnable .bndie true)

end Sys2Proof.Machine
end

