-- ==== Sys2Proof/Machine/Events.lean ====
section
/-! DEFINITION. Events.lean: the shared interrupt handler (60_exceptions.md R446 to R451) and the two resumes of a
blocking command (46_blocking.md R386, R388). -/

namespace Sys2Proof.Machine

/-- The channel bound to the instance when its completion callback is this instance's (R123, R436; DEDUCED, log entry 9). -/
def boundChan (i : BusId) (s : State) : Option DmaChan :=
  if (s.chan (s.ctx i).dmaChannel).owner = .some i then .some (s.chan (s.ctx i).dmaChannel) else .none

def dmaErrPending (i : BusId) (s : State) : Bool :=
  match boundChan i s with
  | .some d => d.err
  | .none => false

def dmaDonePending (i : BusId) (s : State) : Bool :=
  match boundChan i s with
  | .some d => d.done
  | .none => false

/-- The condition under which `Dispatch(i)` is enabled (R446). -/
def dispatchEnabled (i : BusId) (s : State) : Bool :=
  (s.bus i).role != .none && ((s.core i).irq || dmaErrPending i s || dmaDonePending i s)

/-- The three-way choice of R446 for a master. -/
def masterDispatch (i : BusId) (s : State) : State :=
  if dmaErrPending i s then masterDmaError i (s.m i).dmaChannel s
  else if dmaDonePending i s then masterDmaDone i (s.m i).dmaChannel s
  else masterHandler i s

/-- The three-way choice of R446 for a slave. -/
def slaveDispatch (i : BusId) (s : State) : Res :=
  if dmaErrPending i s then slaveDmaError i (s.s i).dmaChannel s
  else if dmaDonePending i s then .next (slaveDmaDone i (s.s i).dmaChannel s)
  else slaveHandler i s

/-- `Dispatch(i)` (R446): one handler, once; nothing where it is not enabled. -/
def dispatch (i : BusId) (s : State) : Res :=
  if dispatchEnabled i s then
    match (s.bus i).role with
    | .master => .next (masterDispatch i s)
    | .slave => slaveDispatch i s
    | .none => .next s
  else .next s

/-- R409. -/
def execIrqEntry (i : BusId) (s : State) : Res :=
  admitted .irqEntry i s fun s => (dispatch i s).bind fun t => .next (t.setRet .success)

/-! ## Resumes -/

/-- OUT0 of an operation admitted while the command waited is overwritten by the resume (R411), by a value no rule states:
free. With none it is left unchanged (R101; DEDUCED, log entry 30). -/
def overwriteOut0 (i : BusId) (s : State) : State :=
  if (s.bus i).outGiven then
    (s.drawRead.2.setOut0 s.drawRead.1).modBus i fun b => { b with outGiven := false }
  else s

/-- What both resumes leave (R386, R388, R411): the caller is no longer suspended and RET holds the result. -/
def resume (i : BusId) (sem : Nat) (r : Result) (s : State) : State :=
  (((overwriteOut0 i s).modCtx i fun x => { x with blocking := false }).modBus i fun b => { b with sem := sem, wait := .none }).setRet r

/-- The wake (R388), where it is enabled: an operation of its own, in task context (R447, R460). RET is `lastResult` as it
stands now, which nothing has changed since the post. -/
def wake (i : BusId) (s : State) : State :=
  if (s.bus i).wakeDue then resume i ((s.bus i).sem - 1) (s.ctx i).lastResult s else s

/-- A receive is outstanding: the channel is stopped first (R386). -/
def timeoutDmaFirst (i : BusId) (s : State) : State :=
  if (s.ctx i).rxBuf.isSome then dmaStopIf (s.ctx i) s else s

/-- The abort path of R386. -/
def timeoutAbort (i : BusId) (s : State) : State :=
  match (s.bus i).role with
  | .slave => if (s.s i).quiet then s else slaveAbort i (timeoutDmaFirst i s)
  | .master => if (s.m i).idle then s else masterAbort i (timeoutDmaFirst i s)
  | .none => s

/-- EV_TIMEOUT (R386), where it is enabled. -/
def timeout (i : BusId) (s : State) : State :=
  if (s.bus i).wait.isSome ∧ (s.bus i).sem = 0 then
    resume i 0 .timeout ((timeoutAbort i s).modCtx i fun x => { x with lastResult := .timeout })
  else s

end Sys2Proof.Machine
end

