-- ==== Sys2Proof/Machine/Clock.lean ====
section
/-! DEFINITION. Clock.lean: the clock-divider solver (44_clock_solver.md). -/

namespace Sys2Proof.Machine

/-- `Rate(clk, step, sample)` (R331). -/
def rate (clk step sample : Nat) : Nat := clk / ((step + 1) * (sample + 1) * 2)

/-- `|a - b|` (R15). -/
def absDiff (a b : Nat) : Nat := (a - b) + (b - a)

/-- The binary search of R330 for the smallest sample whose rate is not above the target. Each turn makes `hi - lo`
smaller, so `hi - lo` turns are enough. -/
def searchSample (clk step target : Nat) (fuel lo hi : Nat) : Nat :=
  match fuel with
  | 0 => lo
  | fuel + 1 =>
    if lo < hi then
      if rate clk step ((lo + hi) / 2) ≤ target then searchSample clk step target fuel lo ((lo + hi) / 2)
      else searchSample clk step target fuel ((lo + hi) / 2 + 1) hi
    else lo

/-- A candidate pair and its error. -/
structure Candidate where
  step : Nat
  sample : Nat
  err : Nat
  deriving DecidableEq, Repr

/-- The candidate of one step value (R330, R333). -/
def candidate (clk target smin smax step : Nat) : Candidate :=
  let lo := searchSample clk step target (smax - smin) smin smax
  let err := absDiff (rate clk step lo) target
  let below := absDiff (rate clk step (lo - 1)) target
  if smin < lo ∧ below < err then ⟨step, lo - 1, below⟩ else ⟨step, lo, err⟩

/-- A later pair replaces the best only when its error is strictly smaller (R330, R333). By floor division two steps can tie below
every reachable rate, where R337 (b) takes each later error to be smaller: the smaller step stays (DEDUCED, log entry 39). -/
def better (best : Option Candidate) (c : Candidate) : Option Candidate :=
  match best with
  | .none => .some c
  | .some b => if c.err < b.err then .some c else .some b

/-- The search of `SolveDivider` (R330), over `STEP_MIN..STEP_MAX` ascending. -/
def solve (p : Params) (clk target : Nat) : Option Candidate :=
  (List.range' p.stepMin.toNat (p.stepMax.toNat + 1 - p.stepMin.toNat)).foldl
    (fun best step => better best (candidate clk target p.sampleMin.toNat p.sampleMax.toNat step)) .none

/-- `WriteDivider` (R336, R92): disable, write, enable. -/
def BusCore.writeDivider (c : BusCore) (sample : Byte) (step : BitVec 4) : BusCore :=
  ((c.disable).setDiv sample step).enable

/-- `CLK_IN[i]` (R468). -/
def State.clkIn (s : State) (i : BusId) : Word := s.params.clkIn[i.val]

/-- The effect of `SolveDivider(i, target)` for a target that is not 0 (R330). With an empty step range, which R7
excludes, there is no pair to write. -/
def solveDivider (i : BusId) (target : Word) (s : State) : State :=
  match solve s.params (s.clkIn i).toNat target.toNat with
  | .some c => s.modCore i (·.writeDivider (BitVec.ofNat 8 c.sample) (BitVec.ofNat 4 c.step))
  | .none => s

end Sys2Proof.Machine
end

