-- ==== Sys2Proof/Machine/Lifecycle.lean ====
section
/-! DEFINITION. Lifecycle.lean: lifecycle and configuration (47_host_interface.md R400 to R408). -/

namespace Sys2Proof.Machine

/-- U6: another initialised instance is bound to the channel. -/
def channelTaken (i : BusId) (c : Chan) (s : State) : Bool :=
  (List.finRange 16).any fun j =>
    j != i && (s.bus j).role != .none && (s.ctx j).transport == .dma && (s.ctx j).dmaChannel == c

/-- The four tests of R400 and R401 in their order; `none` when all pass. -/
def initTest (i : BusId) (t : Transport) (addr10 : Bool) (ch : Chan) (s : State) : Option Result :=
  if (s.bus i).role ≠ .none then .some .error
  else if s.port.arg0 = 0 then .some .error
  else if addrOutOfRange addr10 s.port.arg1 then .some .error
  else if t = .dma ∧ s.params.nDma ≤ ch.val then .some .error
  else .none

/-- Runs `f` on an INIT whose tests pass and whose channel is free (U6). -/
def initAdmitted (i : BusId) (t : Transport) (addr10 : Bool) (ch : Chan) (s : State) (f : State → State) : Res :=
  admitted .init i s fun s =>
    match initTest i t addr10 ch s with
    | .some r => s.reject r
    | .none =>
      if t = .dma ∧ channelTaken i ch s then .refused (.channelShared ch)
      else .next ((f s).setRet .success)

/-- The callback of an INIT and of SET_CALLBACK. -/
def cbOf (installed : Bool) (user : Word) : Option Word := if installed then .some user else .none

/-- The master context after INIT_MASTER (R400). -/
def MCtx.init (t : Transport) (addr10 : Bool) (ch : Chan) (cb : Option Word) (addr : BitVec 10) : MCtx :=
  { toXfer := { addr10 := addr10, transport := t, dmaChannel := ch, cb := cb }, slaveAddr := addr }

/-- The slave context after INIT_SLAVE (R401). -/
def SCtx.init (t : Transport) (addr10 listening wakeup : Bool) (ch : Chan) (cb : Option Word) : SCtx :=
  { toXfer := { addr10 := addr10, transport := t, dmaChannel := ch, cb := cb }, listening := listening, wakeup := wakeup }

/-- What both INITs do to the instance before the solver: clock on, core at its reset values (R468, R469), then the
context, the role and the core's configuration. -/
def Bus.initAs (b : Bus) (r : Role) (c : BusCore) (m : MCtx) (x : SCtx) : Bus :=
  { b with clk := true, core := c, m := m, s := x, role := r, sem := 0, wait := .none, phase := .idle }

/-- R400, from the clock to the solver. -/
def initMaster (i : BusId) (t : Transport) (addr10 cb : Bool) (ch : Chan) (s : State) : State :=
  solveDivider i s.port.arg0
    (s.modBus i fun b =>
      b.initAs .master { mstr := true } (.init t addr10 ch (cbOf cb s.port.arg2) (s.port.arg1.setWidth 10)) b.s)

/-- R400. -/
def execInitMaster (i : BusId) (t : Transport) (addr10 cb : Bool) (ch : Chan) (s : State) : Res :=
  initAdmitted i t addr10 ch s (initMaster i t addr10 cb ch)

/-- `if listening = 1 then SlaveArm(i)` (R401). -/
def armIf (listening : Bool) (i : BusId) (s : State) : State := if listening then s.modCore i .slaveArm else s

/-- R401, from the clock to the arming. -/
def initSlave (i : BusId) (t : Transport) (addr10 cb listening wakeup : Bool) (ch : Chan) (s : State) : State :=
  armIf listening i (solveDivider i s.port.arg0
    (s.modBus i fun b =>
      b.initAs .slave { ownaddr := s.port.arg1.setWidth 10, addr10 := addr10, wakeen := wakeup } b.m
        (.init t addr10 listening wakeup ch (cbOf cb s.port.arg2))))

/-- R401. -/
def execInitSlave (i : BusId) (t : Transport) (addr10 cb listening wakeup : Bool) (ch : Chan) (s : State) : Res :=
  initAdmitted i t addr10 ch s (initSlave i t addr10 cb listening wakeup ch)

/-- The abort inside DEINIT (R402). -/
def deinitAbort (i : BusId) (s : State) : State :=
  match (s.bus i).role with
  | .slave => (if (s.s i).quiet then s else slaveAbort i s).modCore i .slaveDisarm
  | .master => if (s.m i).idle then s else masterAbort i s
  | .none => s

/-- Nothing of the instance survives its end (R476): its completion callback is taken off the channel it was bound to
(DEDUCED, log entry 13). -/
def releaseChan (i : BusId) (s : State) : State :=
  if (s.chan (s.ctx i).dmaChannel).owner = .some i then
    s.modChan (s.ctx i).dmaChannel fun d => { d with remaining := 0, owner := .none }
  else s

/-- Every interrupt enable 0 (R402, R481; DEDUCED, log entry 14). -/
def BusCore.enablesOff (c : BusCore) : BusCore :=
  { c with bndie := false, nackie := false, arbie := false, addrie := false, stopie := false }

/-- The rest of R402. -/
def Bus.deinit (b : Bus) : Bus :=
  { (b.modCore fun c => { c.disable.enablesOff with mstr := false }).modCtx fun x => { x with cb := .none } with
    role := .none, phase := .idle, sem := 0, clk := false }

/-- R402. -/
def execDeinit (i : BusId) (s : State) : Res :=
  admitted .deinit i s fun s => .next (((releaseChan i (deinitAbort i s)).modBus i .deinit).setRet .success)

/-- R403. Admission goes by the idle flag (R104 (4)), so that a slave that is idle with a transfer in progress loses its selection
to the disable of R336, which concludes that no transfer is cut (DEDUCED, log entry 38). -/
def execSetRate (i : BusId) (s : State) : Res :=
  admitted .setRate i s fun s =>
    if s.port.arg0 = 0 then s.reject .error
    else .next ((solveDivider i s.port.arg0 s).setRet .success)

/-- R405. -/
def execGetRate (i : BusId) (s : State) : Res :=
  admitted .getRate i s fun s =>
    .next ((s.giveOut0 i (BitVec.ofNat 32
      (rate (s.clkIn i).toNat (s.core i).step.toNat (s.core i).sample.toNat))).setRet .success)

/-- R406. -/
def execSetTargetAddr (i : BusId) (addr10 : Bool) (s : State) : Res :=
  admitted .setTarget i s fun s =>
    if addrOutOfRange addr10 s.port.arg0 then s.reject .error
    else .next ((s.modM i fun m =>
      { m.modX (fun x => { x with addr10 := addr10 }) with slaveAddr := s.port.arg0.setWidth 10 }).setRet .success)

/-- R407. -/
def execSetOwnAddr (i : BusId) (addr10 : Bool) (s : State) : Res :=
  admitted .setOwn i s fun s =>
    if addrOutOfRange addr10 s.port.arg0 then s.reject .error
    else .next (((s.modCore i fun c => { c with ownaddr := s.port.arg0.setWidth 10, addr10 := addr10 }).modSX i
      fun x => { x with addr10 := addr10 }).setRet .success)

/-- R408. -/
def execSetCallback (i : BusId) (install : Bool) (s : State) : Res :=
  admitted .setCallback i s fun s =>
    .next ((s.modCtx i fun x => { x with cb := cbOf install s.port.arg0 }).setRet .success)

end Sys2Proof.Machine
end

