-- ==== Sys2Proof/Machine/Dispatch.lean ====
section
/-! DEFINITION. Dispatch.lean: one arm per operation of the opcode table (30_encoding.md R101). -/

namespace Sys2Proof.Machine

def exec (x : Instr) (s : State) : Host.Outcome State Fault Refusal :=
  match x with
  | .initMaster i transport addr10 cb ch => Sys2Proof.Machine.execInitMaster i transport addr10 cb ch s
  | .initSlave i transport addr10 cb listening wakeup ch => Sys2Proof.Machine.execInitSlave i transport addr10 cb listening wakeup ch s
  | .deinit i => Sys2Proof.Machine.execDeinit i s
  | .setRate i => Sys2Proof.Machine.execSetRate i s
  | .getRate i => Sys2Proof.Machine.execGetRate i s
  | .setTargetAddr i addr10 => Sys2Proof.Machine.execSetTargetAddr i addr10 s
  | .setOwnAddr i addr10 => Sys2Proof.Machine.execSetOwnAddr i addr10 s
  | .setCallback i install => Sys2Proof.Machine.execSetCallback i install s
  | .irqEntry i => Sys2Proof.Machine.execIrqEntry i s
  | .mSend i stop => Sys2Proof.Machine.execMSend i stop s
  | .mRecv i stop => Sys2Proof.Machine.execMRecv i stop s
  | .mSendBlk i stop => Sys2Proof.Machine.execMSendBlk i stop s
  | .mRecvBlk i stop => Sys2Proof.Machine.execMRecvBlk i stop s
  | .mAbort i => Sys2Proof.Machine.execMAbort i s
  | .mGetStatus i => Sys2Proof.Machine.execMGetStatus i s
  | .sSetTxBuf i => Sys2Proof.Machine.execSSetTxBuf i s
  | .sSetRxBuf i => Sys2Proof.Machine.execSSetRxBuf i s
  | .sSend i => Sys2Proof.Machine.execSSend i s
  | .sRecv i => Sys2Proof.Machine.execSRecv i s
  | .sSendBlk i => Sys2Proof.Machine.execSSendBlk i s
  | .sRecvBlk i => Sys2Proof.Machine.execSRecvBlk i s
  | .sAbort i => Sys2Proof.Machine.execSAbort i s
  | .sGetStatus i => Sys2Proof.Machine.execSGetStatus i s
  | .seqStart i => Sys2Proof.Machine.execSeqStart i s
  | .seqRstart i => Sys2Proof.Machine.execSeqRstart i s
  | .seqWaitReady i => Sys2Proof.Machine.execSeqWaitReady i s
  | .seqTxByte i b => Sys2Proof.Machine.execSeqTxByte i b s
  | .seqStop i => Sys2Proof.Machine.execSeqStop i s
  | .seqAddress i d => Sys2Proof.Machine.execSeqAddress i d s
  | .pStart i => Sys2Proof.Machine.execPStart i s
  | .pRstart i => Sys2Proof.Machine.execPRstart i s
  | .pStop i => Sys2Proof.Machine.execPStop i s
  | .pSetDir i d => Sys2Proof.Machine.execPSetDir i d s
  | .pSetAck i a => Sys2Proof.Machine.execPSetAck i a s
  | .pWriteData i b => Sys2Proof.Machine.execPWriteData i b s
  | .pReadData i => Sys2Proof.Machine.execPReadData i s
  | .pReadLast i => Sys2Proof.Machine.execPReadLast i s
  | .pClearFlag i f => Sys2Proof.Machine.execPClearFlag i f s
  | .pIntEnable i src => Sys2Proof.Machine.execPIntEnable i src s
  | .pIntDisable i src => Sys2Proof.Machine.execPIntDisable i src s
  | .pSetDiv i sample step => Sys2Proof.Machine.execPSetDiv i sample step s
  | .pModuleEnable i => Sys2Proof.Machine.execPModuleEnable i s
  | .pModuleDisable i => Sys2Proof.Machine.execPModuleDisable i s
  | .pGetFlags i => Sys2Proof.Machine.execPGetFlags i s
  | .pSetDmareq i d en => Sys2Proof.Machine.execPSetDmareq i d en s

end Sys2Proof.Machine
end

