-- ==== Sys2Proof/Machine/HostPort.lean ====
section
/-! DEFINITION. HostPort.lean: the register map (10_state.md R27, R28), the host's accesses to its own buffers
(20_memory.md R94), the system reset (R480), and one step of any agent (60_exceptions.md R447, R471). -/

namespace Sys2Proof.Machine

/-- The registers of R28. -/
inductive Reg where
  | cmd
  | arg0
  | arg1
  | arg2
  | ret
  | out0
  | hstat
  | ctrl (i : BusId)
  | status (i : BusId)
  | inten (i : BusId)
  | data (i : BusId)
  | datalast (i : BusId)
  | div (i : BusId)
  | ownaddr (i : BusId)
  deriving DecidableEq, Repr

/-- The register of instance `i` at an offset within its block (R28). -/
def coreRegOf (i : BusId) (off : Nat) : Option Reg :=
  match off with
  | 0x00 => .some (.ctrl i)
  | 0x04 => .some (.status i)
  | 0x08 => .some (.inten i)
  | 0x0C => .some (.data i)
  | 0x10 => .some (.datalast i)
  | 0x14 => .some (.div i)
  | 0x18 => .some (.ownaddr i)
  | _ => .none

/-- The register at an offset from `E_BASE` (R28). -/
def regOf (nInst off : Nat) : Option Reg :=
  match off with
  | 0x000 => .some .cmd
  | 0x004 => .some .arg0
  | 0x008 => .some .arg1
  | 0x00C => .some .arg2
  | 0x010 => .some .ret
  | 0x014 => .some .out0
  | 0x018 => .some .hstat
  | _ =>
    if h : 0x100 ≤ off ∧ (off - 0x100) / 0x40 < 16 then
      if (off - 0x100) / 0x40 < nInst then coreRegOf ⟨(off - 0x100) / 0x40, h.2⟩ ((off - 0x100) % 0x40) else .none
    else .none

def State.setPort (s : State) (p : Port) : State := { s with port := p }

/-- A write of CMD (R100, R103): the word is kept (DESIGN CHOICE, log entry 19), then the operation runs. -/
def command (w : Word) (s : State) : Res :=
  let t := s.setPort { s.port with cmd := w }
  match decode s.params.nInst w with
  | .op x => exec x t
  | .rejected _ => t.reject .error

/-! ## Stores to core registers: each is one primitive (R28), or it is refused (U5; DESIGN CHOICE, log entry 17) -/

/-- The CTRL bits of R28 in which a written word differs from what is read. -/
def ctrlDiff (c : BusCore) (v : Word) : Word := (v ^^^ c.ctrlWord) &&& 0xF7F

/-- The primitive a store to CTRL is. -/
def ctrlPrimitive (i : BusId) (diff v : Word) : Option Instr :=
  if diff = 0x001 then .some (if v.getLsbD 0 then .pModuleEnable i else .pModuleDisable i)
  else if diff = 0x004 then .some (.pSetDir i (Decode.dirOf (v.getLsbD 2)))
  else if diff = 0x008 then .some (.pSetAck i (Decode.ackOf (v.getLsbD 3)))
  else if diff = 0x010 then .some (.pStart i)
  else if diff = 0x020 then .some (.pRstart i)
  else if diff = 0x040 then .some (.pStop i)
  else if diff = 0x400 then .some (.pSetDmareq i .tx (v.getLsbD 10))
  else if diff = 0x800 then .some (.pSetDmareq i .rx (v.getLsbD 11))
  else .none

/-- A store whose difference is `diff`: nothing, one primitive, or refused. -/
def oneField (diff : Word) (off : Word) (p : Option Instr) (s : State) : Res :=
  if diff = 0 then .next s
  else
    match p with
    | .some x => exec x s
    | .none => .refused (.notOneField off)

/-- A store to a core whose instance is not initialised is turned away before it is looked at (R104 (1), R468): what the core
still holds is nothing a host can reach (R476; DESIGN CHOICE, log entry 17). -/
def whileOn (i : BusId) (s : State) (r : Res) : Res := if (s.bus i).role = .none then s.reject .error else r

def writeCtrl (i : BusId) (off v : Word) (s : State) : Res :=
  whileOn i s <| oneField (ctrlDiff (s.core i) v) off (ctrlPrimitive i (ctrlDiff (s.core i) v) v) s

/-- A store to STATUS clears the one sticky flag it writes 1 to; live flags ignore writes (R28). One that clears no flag,
or several, is refused (U5). -/
def writeStatus (i : BusId) (off v : Word) (s : State) : Res :=
  match Decode.stickyOf ((v &&& 0x17C).setWidth 16) with
  | .some f => exec (.pClearFlag i f) s
  | .none => .refused (.notOneField off)

def intenDiff (c : BusCore) (v : Word) : Word := (v ^^^ c.intenWord) &&& 0x178

/-- The primitive a store to INTEN is. -/
def intenPrimitive (i : BusId) (diff v : Word) : Option Instr :=
  (Decode.srcOf (diff.setWidth 16)).map fun src =>
    if v &&& diff = 0 then .pIntDisable i src else .pIntEnable i src

def writeInten (i : BusId) (off v : Word) (s : State) : Res :=
  whileOn i s <| oneField (intenDiff (s.core i) v) off (intenPrimitive i (intenDiff (s.core i) v) v) s

def writeOwnaddr (i : BusId) (off v : Word) (s : State) : Res :=
  whileOn i s <| oneField ((v &&& 0x3FF) ^^^ ((s.core i).ownaddr.setWidth 32)) off .none s

/-- A host store of a whole word to a register. -/
def writeReg (off v : Word) (s : State) : Res :=
  match regOf s.params.nInst off.toNat with
  | .none => .fault (.noSuchRegister off)
  | .some r =>
    match r with
    | .cmd => command v s
    | .arg0 => .next (s.setPort { s.port with arg0 := v })
    | .arg1 => .next (s.setPort { s.port with arg1 := v })
    | .arg2 => .next (s.setPort { s.port with arg2 := v })
    | .ret => .next s
    | .out0 => .next s
    | .hstat => .next s
    | .ctrl i => writeCtrl i off v s
    | .status i => writeStatus i off v s
    | .inten i => writeInten i off v s
    | .data i => exec (.pWriteData i (v.extractLsb' 0 8)) s
    | .datalast _ => .refused (.notOneField off)
    | .div i => exec (.pSetDiv i (v.extractLsb' 0 8) (v.extractLsb' 8 4)) s
    | .ownaddr i => writeOwnaddr i off v s

/-- The bits of R28 a read of the register can deliver; every other bit reads 0. -/
def Reg.readable (r : Reg) : Word :=
  match r with
  | .cmd => 0
  | .arg0 | .arg1 | .arg2 | .ret | .out0 => 0xFFFFFFFF
  | .hstat => 0xFFFF
  | .ctrl _ => 0xF0F
  | .status _ => 0x3FF
  | .inten _ => 0x178
  | .data _ | .datalast _ => 0xFF
  | .div _ => 0xFFF
  | .ownaddr _ => 0x3FF

/-- What a read whose value no rule states delivers: free in the bits R28 lists, 0 in the others (DESIGN CHOICE, log
entry 17). -/
def freeDelivery (r : Reg) (s : State) : State := s.drawRead.2.setRdata (s.drawRead.1 &&& r.readable)

/-- A read without side effect (R81). That R104 (3), (4) does not turn one away, STATUS no more than the others, and that it
leaves RET and OUT0 alone, is a DESIGN CHOICE (log entry 17). While the instance is not initialised the core's clock is off and
no rule accesses it (R468): what the read delivers then is a free value. -/
def plainRead (i : BusId) (r : Reg) (v : Word) (s : State) : State :=
  if (s.bus i).role = .none then freeDelivery r s else s.setRdata v

/-- A read that is a primitive (R28): what it delivers is OUT0, and a free value when it is turned away. -/
def primitiveRead (i : BusId) (r : Reg) (x : Instr) (s : State) : Res :=
  Res.bind (exec x s) fun t =>
    match (s.bus i).turnAway .prim with
    | .none => .next (t.setRdata t.port.out0)
    | .some _ => .next (freeDelivery r t)

/-- A host read of a whole word from a register. -/
def readReg (off : Word) (s : State) : Res :=
  match regOf s.params.nInst off.toNat with
  | .none => .fault (.noSuchRegister off)
  | .some r =>
    match r with
    | .cmd => .refused (.writeOnly off)
    | .arg0 => .next (s.setRdata s.port.arg0)
    | .arg1 => .next (s.setRdata s.port.arg1)
    | .arg2 => .next (s.setRdata s.port.arg2)
    | .ret => .next (s.setRdata s.port.ret)
    | .out0 => .next (s.setRdata s.port.out0)
    | .hstat => .next (s.setRdata s.hstat)
    | .ctrl i => .next (plainRead i r (s.core i).ctrlWord s)
    | .status i => .next (plainRead i r (s.core i).statusWord s)
    | .inten i => .next (plainRead i r (s.core i).intenWord s)
    | .data i => primitiveRead i r (.pReadData i) s
    | .datalast i => primitiveRead i r (.pReadLast i) s
    | .div i => .next (plainRead i r (s.core i).divWord s)
    | .ownaddr i => .next (plainRead i r ((s.core i).ownaddr.setWidth 32) s)

/-- The offset from `E_BASE` of an address (R28). -/
def State.offset (s : State) (a : Word) : Word := a - s.params.eBase

/-- R79, U9: registers are accessed as whole aligned words. `E_BASE` is word aligned (R28), so the offset is aligned when
the address is. -/
def wholeWord (w : Width) (off : Word) : Bool := w == .word && off.extractLsb' 0 2 == 0

/-! ## The host's own accesses to buffer memory (R94, R490, U1; DESIGN CHOICE, log entry 21) -/

/-- The address lies in the range lent. -/
def covered (l : Option Lend) (a : Word) : Bool :=
  match l with
  | .some l => decide (l.buf.toNat ≤ a.toNat) && decide (a.toNat < l.buf.toNat + l.len.toNat)
  | .none => false

/-- The address lies in a send buffer this instance holds: that of the transfer in flight, or a slave's lent beside one and
not yet consumed (R490). -/
def Bus.holdsTx (b : Bus) (a : Word) : Bool :=
  match b.role with
  | .none => false
  | .master => !b.m.idle && covered b.m.txLent a
  | .slave => (!b.s.idle && covered b.s.txLent a) || (b.s.txRemaining != 0 && covered b.s.txSet a)

/-- The address lies in a receive buffer this instance holds: as above. -/
def Bus.holdsRx (b : Bus) (a : Word) : Bool :=
  match b.role with
  | .none => false
  | .master => !b.m.idle && covered b.m.rxLent a
  | .slave => (!b.s.idle && covered b.s.rxLent a) || (b.s.rxRemaining != 0 && covered b.s.rxSet a)

/-- The address lies in a receive buffer some instance holds. -/
def State.lentRx (s : State) (a : Word) : Bool := (List.finRange 16).any fun i => (s.bus i).holdsRx a

/-- The address lies in a buffer some instance holds. -/
def State.lent (s : State) (a : Word) : Bool :=
  s.lentRx a || (List.finRange 16).any fun i => (s.bus i).holdsTx a

def hostStore (a : Word) (b : Byte) (s : State) : Res :=
  if s.lent a then .refused (.lentBuffer a) else .next (s.store a b)

def hostLoad (a : Word) (s : State) : Res :=
  if s.lentRx a then .refused (.lentBuffer a) else .next (s.setRdata ((s.load a).setWidth 32))

/-! ## One step of an agent -/

/-- R480: the block returns to its reset state; buffer memory, the parameters and the environment are not the block's
(DESIGN CHOICE, log entry 23). -/
def systemReset (s : State) : State := { State.reset with params := s.params, mem := s.mem, env := s.env }

/-- What one agent's step does: an atomic operation (DEDUCED, log entry 24). -/
def runInput (x : Input) (s : State) : Res :=
  match x with
  | .regWrite w a v => if wholeWord w (s.offset a) then writeReg (s.offset a) v s else .refused (.notWholeWord a)
  | .regRead w a => if wholeWord w (s.offset a) then readReg (s.offset a) s else .refused (.notWholeWord a)
  | .memWrite a b => hostStore a b s
  | .memRead a => hostLoad a s
  | .bus i d => .next (s.busStep i d)
  | .dmaServe c => .next (dmaServe c s)
  | .dmaFail c => .next (dmaFail c s)
  | .dispatch i => dispatch i s
  | .wake i => .next (wake i s)
  | .timeout i => .next (timeout i s)
  | .sysReset => .next (systemReset s)

/-- Takes the input just read off the schedule. -/
def State.withInputs (s : State) (l : List Input) : State := { s with env := { s.env with inputs := l } }

/-- The next input of the schedule; with none the engine waits (R58, R480: it executes nothing until the host issues a
command). -/
def nextInput (s : State) : Res :=
  match s.env.inputs with
  | [] => .next s
  | x :: rest => runInput x (s.withInputs rest)

/-- The write of a command word to CMD, put in front of the schedule. -/
def State.pushCommand (s : State) (w : Word) : State :=
  s.withInputs (.regWrite .word s.params.eBase w :: s.env.inputs)

end Sys2Proof.Machine
end

