-- ==== Sys2Proof/Machine/Step.lean ====
section
/-! DEFINITION. Step.lean: one step of the machine (60_exceptions.md R447): the next agent's input, run to its end. -/

namespace Sys2Proof.Machine

def step (s : State) : Host.Outcome State Fault Refusal := nextInput s

/-- `s` with the command word `w` (its `nbits` bits) as the host's next write to CMD: the engine fetches nothing, its
operations come from the port (R100, INDEX.md). -/
def State.withFetchWord (s : State) (nbits w : Nat) : State :=
  s.pushCommand (BitVec.ofNat 32 (w % 2 ^ nbits))

end Sys2Proof.Machine
end

