-- ==== Sys2Proof/Safety.lean ====
section
/-! DEFINITION. Safety.lean: the terms claims use: when a command is admitted (30_encoding.md R104), a cooperative bus
(00_scope.md R7, 60_exceptions.md R471), and the invariants of the state (10_state.md R26, R32, R34, R46 to R48;
46_blocking.md R390; 60_exceptions.md R468, R476). -/

namespace Sys2Proof

/-! ## R104, operation by operation -/

/-- The two operations R104 (1) lets run on an instance that is not initialised. -/
def Instr.isInit : Instr → Bool
  | .initMaster .. => true
  | .initSlave .. => true
  | _ => false

/-- R104 (2): the operations that are for a master only. -/
def Instr.masterOnly : Instr → Bool
  | .mSend .. => true
  | .mRecv .. => true
  | .mSendBlk .. => true
  | .mRecvBlk .. => true
  | .mAbort .. => true
  | .mGetStatus .. => true
  | .setTargetAddr .. => true
  | .seqAddress .. => true
  | _ => false

/-- R104 (2): the operations that are for a slave only. -/
def Instr.slaveOnly : Instr → Bool
  | .sSetTxBuf .. => true
  | .sSetRxBuf .. => true
  | .sSend .. => true
  | .sRecv .. => true
  | .sSendBlk .. => true
  | .sRecvBlk .. => true
  | .sAbort .. => true
  | .sGetStatus .. => true
  | .setOwnAddr .. => true
  | _ => false

/-- R104 (3): what is admitted while a blocking command is suspended. -/
def Instr.whileWaiting : Instr → Bool
  | .mAbort .. => true
  | .sAbort .. => true
  | .mGetStatus .. => true
  | .sGetStatus .. => true
  | .sSetTxBuf .. => true
  | .sSetRxBuf .. => true
  | .setCallback .. => true
  | .getRate .. => true
  | .irqEntry .. => true
  | _ => false

/-- The sequencer routines (41_sequencer.md). -/
def Instr.isSequencer : Instr → Bool
  | .seqStart .. => true
  | .seqRstart .. => true
  | .seqWaitReady .. => true
  | .seqTxByte .. => true
  | .seqStop .. => true
  | .seqAddress .. => true
  | _ => false

/-- The primitives (40_primitives.md). -/
def Instr.isPrimitive : Instr → Bool
  | .pStart .. => true
  | .pRstart .. => true
  | .pStop .. => true
  | .pSetDir .. => true
  | .pSetAck .. => true
  | .pWriteData .. => true
  | .pReadData .. => true
  | .pReadLast .. => true
  | .pClearFlag .. => true
  | .pIntEnable .. => true
  | .pIntDisable .. => true
  | .pSetDiv .. => true
  | .pModuleEnable .. => true
  | .pModuleDisable .. => true
  | .pGetFlags .. => true
  | .pSetDmareq .. => true
  | _ => false

/-- The commands that start a transfer. -/
def Instr.isTransferStart : Instr → Bool
  | .mSend .. => true
  | .mRecv .. => true
  | .mSendBlk .. => true
  | .mRecvBlk .. => true
  | .sSend .. => true
  | .sRecv .. => true
  | .sSendBlk .. => true
  | .sRecvBlk .. => true
  | _ => false

/-- R104 (4): what needs an idle context. -/
def Instr.needsIdle (x : Instr) : Bool :=
  x.isPrimitive || x.isSequencer || x.isTransferStart ||
  match x with
  | .setRate .. => true
  | .setTargetAddr .. => true
  | .setOwnAddr .. => true
  | _ => false

/-! ## Legal command words, from the opcode table -/

/-- The opcodes of R101, each with the IMM bits it defines. -/
def opcodeTable : List (Byte × BitVec 16) :=
  [(0x01, 0xFF07), (0x02, 0xFF1F), (0x03, 0), (0x04, 0), (0x05, 0), (0x06, 1), (0x07, 1), (0x08, 1), (0x09, 0)] ++
  [(0x10, 1), (0x11, 1), (0x12, 1), (0x13, 1), (0x14, 0), (0x15, 0)] ++
  [(0x20, 0), (0x21, 0), (0x22, 0), (0x23, 0), (0x24, 0), (0x25, 0), (0x26, 0), (0x27, 0)] ++
  [(0x30, 0), (0x31, 0), (0x32, 0), (0x33, 0x00FF), (0x34, 0), (0x35, 1)] ++
  [(0x40, 0), (0x41, 0), (0x42, 0), (0x43, 1), (0x44, 1), (0x45, 0x00FF), (0x46, 0), (0x47, 0), (0x48, 0x017C)] ++
  [(0x49, 0x0178), (0x4A, 0x0178), (0x4B, 0x0FFF), (0x4C, 0), (0x4D, 0), (0x4E, 0), (0x4F, 3)]

/-- P_CLEAR_FLAG, P_INT_ENABLE and P_INT_DISABLE name exactly one flag (R124). -/
def takesMask (opc : Byte) : Bool := opc == 0x48 || opc == 0x49 || opc == 0x4A

/-- Exactly one bit is set. -/
def oneBit (v : BitVec 16) : Bool := v != 0 && v &&& (v - 1) == 0

/-- R103: the words that are no operation. -/
def illegalWord (nInst : Nat) (w : Word) : Bool :=
  match opcodeTable.lookup (w.extractLsb' 24 8) with
  | none => true
  | some mask =>
    w.extractLsb' 20 4 != 0 || decide (nInst ≤ (w.extractLsb' 16 4).toNat) || w.extractLsb' 0 16 &&& ~~~mask != 0 ||
      (takesMask (w.extractLsb' 24 8) && !oneBit (w.extractLsb' 0 16))

namespace Machine

/-- R104 (2): the role is the wrong one for the operation. -/
def wrongRole (x : Instr) (r : Role) : Bool := (x.masterOnly && r != .master) || (x.slaveOnly && r != .slave)

/-- An initialised instance with an idle context and no suspended command: every command that fits its role passes
R104. -/
structure IdleAt (i : BusId) (s : State) : Prop where
  role : (s.bus i).role ≠ .none
  wait : (s.bus i).wait = .none
  idle : (s.ctx i).idle = true

/-- A master that may start a transfer. -/
structure IdleMaster (i : BusId) (s : State) : Prop where
  role : (s.bus i).role = .master
  wait : (s.bus i).wait = .none
  idle : (s.m i).idle = true

/-- A slave that may accept a transfer. -/
structure IdleSlave (i : BusId) (s : State) : Prop where
  role : (s.bus i).role = .slave
  wait : (s.bus i).wait = .none
  idle : (s.s i).idle = true

/-- ARG0 and ARG1 name a buffer of a length R225 accepts which lies in the address space (U4). -/
structure GoodBuffer (s : State) : Prop where
  pos : s.port.arg1 ≠ 0
  max : s.port.arg1 ≤ s.params.lenMax
  fits : s.port.arg0.toNat + s.port.arg1.toNat ≤ 2 ^ 32

/-- A poll in which the bus step is taken and the transmitted byte, if any, is acknowledged (R471, "cooperative"). -/
def PollDraw.cooperative : PollDraw → Bool
  | .taken d => d.tx == .acked
  | .withheld => false

/-- The next `n` polls are drawn from the list, and every one is cooperative. -/
def Cooperative (n : Nat) (s : State) : Prop :=
  n ≤ s.env.polls.length ∧ (s.env.polls.take n).all PollDraw.cooperative = true

/-- The four tests of INIT (R400) on its operands, of which one fails. -/
def badConfig (s : State) (transport : Transport) (addr10 : Bool) (ch : Chan) : Prop :=
  s.port.arg0 = 0 ∨ (if addr10 then 0x3FF else 0x7F) < s.port.arg1.toNat ∨ (transport = .dma ∧ s.params.nDma ≤ ch.val)

/-- The symbols of an address phase in which every byte is acknowledged (R113): `owner` tells a repeated start from a
start. -/
def addressWire (owner : Bool) (a : BitVec 10) (addr10 : Bool) (d : WireDir) : List Sym :=
  (if owner then Sym.sr else .s) ::
    if addr10 = false then [.w (ab7 a d) .ack]
    else
      [.w (pfx a .write) .ack, .w (lowByte a) .ack] ++
        match d with
        | .write => []
        | .read => [.sr, .w (pfx a .read) .ack]

/-- The last byte of an address phase (R113). -/
def lastAddressByte (a : BitVec 10) (addr10 : Bool) (d : WireDir) : Byte :=
  if addr10 = false then ab7 a d
  else
    match d with
    | .write => lowByte a
    | .read => pfx a .read

/-! ## Invariants -/

/-- What a pending request says of the core that accepted it (R141 to R143, R148, R149, R158). -/
def BusCore.pendOk (c : BusCore) : Bool :=
  match c.pend with
  | .none => true
  | .start => c.mstr && !c.owner
  | .rstart => c.owner
  | .stop => c.owner
  | .txByte _ => c.owner || (c.sel && c.srw)
  | .rxByte => c.owner

/-- Ownership and selection (R26, R158, R171): a disabled core holds nothing; an owner is a master on a busy bus; a
selected core is a slave on a busy bus. -/
def BusCore.ok (c : BusCore) : Bool :=
  (c.moden || (c.pend == .none && !c.busy && !c.owner && !c.sel)) &&
  (!c.owner || (c.mstr && c.busy)) && (!c.sel || (!c.mstr && c.busy)) && (!c.sel10 || c.sel) && c.pendOk

/-- A core in which the address phase can run: enabled, a master, the bus its own or free (R160). -/
structure CoreReady (c : BusCore) : Prop where
  ok : c.ok = true
  enabled : c.moden = true
  master : c.mstr = true
  bus : c.owner = true ∨ c.busy = false

/-- R32 (a), (c), (d): an unset buffer has count 0; an idle context holds no buffer, a busy one exactly one. -/
def MCtx.ok (m : MCtx) : Bool :=
  (m.txBuf.isSome || m.txRemaining == 0) && (m.rxBuf.isSome || m.rxRemaining == 0) &&
  if m.idle then m.txBuf.isNone && m.rxBuf.isNone else m.txBuf.isSome != m.rxBuf.isSome

/-- R34 (a): an unset buffer has count 0. -/
def SCtx.ok (x : SCtx) : Bool := (x.txBuf.isSome || x.txRemaining == 0) && (x.rxBuf.isSome || x.rxRemaining == 0)

/-- R46 to R48: the phase that the flags of the bound context give. -/
def Bus.flagPhase (b : Bus) : Phase :=
  match b.role with
  | .none => .idle
  | .master => if b.m.idle then .idle else .data
  | .slave => if b.s.inProgress then .data else if b.s.idle then .idle else .armed

/-- R51, R390, R411: a command is suspended on an initialised instance whose context says so, and the semaphore has been
posted exactly when the transfer has ended; `blocking` and `outGiven` are set in no other case. -/
def Bus.waitOk (b : Bus) : Bool :=
  (!b.m.blocking || (b.role == .master && b.wait.isSome)) && (!b.s.blocking || (b.role == .slave && b.wait.isSome)) &&
  (b.wait.isNone || (b.role != .none && b.ctx.blocking && (b.sem != 0) == b.ctx.idle)) && (!b.outGiven || b.wait.isSome)

/-- R388, R390 (c): until its caller is resumed a suspended transfer that has ended keeps a result that is not BUSY, and a slave
is in no transfer; a one-shot slave answers no address. -/
def Bus.endedOk (b : Bus) : Bool :=
  b.wait.isNone || !b.ctx.idle ||
    (b.ctx.lastResult != .busy && (b.role != .slave || (!b.s.inProgress && (b.s.listening || !b.core.addrie))))

/-- The clock is on exactly while the instance is initialised (R468). -/
def Bus.clkOk (b : Bus) : Bool := b.clk == (b.role != .none)

/-- The instance is initialised and bound to the channel. -/
def Bus.boundTo (b : Bus) (c : Chan) : Bool := b.role != .none && b.ctx.transport == .dma && b.ctx.dmaChannel == c

/-- The instance whose completion callback is installed on a channel is bound to it; a DEINIT takes it off (R49, R476). -/
def State.ownerOk (s : State) (c : Chan) : Prop := ∀ i, (s.chan c).owner = .some i → (s.bus i).boundTo c = true

/-- The instance is in a transfer that uses the channel. -/
def Bus.usesChan (b : Bus) (c : Chan) : Bool :=
  match b.role with
  | .none => false
  | .master => b.m.transport == .dma && b.m.dmaChannel == c && !b.m.idle
  | .slave => b.s.transport == .dma && b.s.dmaChannel == c && b.s.inProgress

/-- A master's byte interrupt is off while the channel moves bytes (R354). -/
def Bus.chanQuiet (b : Bus) : Bool := b.role != .master || !b.core.bndie

/-- A live channel has one pending cause and belongs to an instance that is in a transfer over it (R357 to R359). -/
def State.chanOk (s : State) (c : Chan) : Prop :=
  (s.chan c).live = true →
    ∃ i, (s.chan c).owner = .some i ∧ (s.bus i).usesChan c = true ∧
      ((s.chan c).active = true → (s.bus i).chanQuiet = true ∧ (s.chan c).done = false ∧ (s.chan c).err = false) ∧
      ((s.chan c).done = true → (s.chan c).err = false)

/-- The invariant of the engine: what R26, R32, R34, R46 to R48, R51, R158, R357 to R359, R388, R390, R411, R468 and R476 say
of every state between two operations; its part `ended` rests on log entry 29. -/
structure Inv (s : State) : Prop where
  core : ∀ i, (s.bus i).core.ok = true
  master : ∀ i, (s.bus i).m.ok = true
  slave : ∀ i, (s.bus i).s.ok = true
  phase : ∀ i, (s.bus i).phase = (s.bus i).flagPhase
  waiting : ∀ i, (s.bus i).waitOk = true
  ended : ∀ i, (s.bus i).endedOk = true
  clock : ∀ i, (s.bus i).clkOk = true
  owner : ∀ c, s.ownerOk c
  chan : ∀ c, s.chanOk c

/-! ## What a rule leaves, written once -/

/-- The instance after a stop condition of its own (R163). -/
def Bus.stopped (b : Bus) : Bus :=
  { b with trace := b.trace ++ [.p], core := { b.core with busy := false, owner := false, pend := .none } }

/-- The instance after a poll that gave up (R190). -/
def Bus.givenUp (b : Bus) : Bus := { b with core := { b.core with pend := .none } }

/-- The instance after the end of a master transfer with result `r`, before the callback (R242, R246, R250, R353):
sources and DMA requests off, buffers unset, idle, a suspended caller's semaphore posted. -/
def Bus.masterEnded (b : Bus) (r : Result) : Bus :=
  { b with
    core := { b.core with bndie := false, nackie := false, arbie := false, dmatxen := false, dmarxen := false }
    m :=
      { b.m with
        txBuf := .none, txRemaining := 0, txLent := .none, rxBuf := .none, rxRemaining := 0, rxLent := .none
        lastResult := r, idle := true }
    phase := .idle
    sem := if b.m.blocking then b.sem + 1 else b.sem }

/-- The instance after the event `e` has been delivered to a callback `cb` (R440). -/
def Bus.called (b : Bus) (i : BusId) (cb : Option Word) (e : Event) : Bus :=
  match cb with
  | .none => b
  | .some user => { b with cbtrace := b.cbtrace ++ [⟨i, e, user⟩] }

/-- What the channel is after DmaStop, and the call on `dmatrace` (R359), when the transport is DMA. -/
def State.channelStopped (s : State) (x : Xfer) : State :=
  if x.transport = .dma then
    { s.setChan x.dmaChannel { s.chan x.dmaChannel with active := false, done := false, err := false } with
      dmatrace := s.dmatrace ++ [.stop x.dmaChannel] }
  else s

/-- The channel `c` configured, installed and started, and the three calls on `dmatrace` (R357), when `bulk` says so. -/
def State.channelStarted (s : State) (bulk : Bool) (c : Chan) (src dst : Endpoint) (n : Word) (dir : DmaDir) (i : BusId) :
    State :=
  if bulk then
    { s.setChan c
        { src := src, dst := dst, remaining := n, dir := dir, active := true, owner := .some i, done := false
          err := false } with
      dmatrace := s.dmatrace ++ [.configure c, .installCallback c, .start c] }
  else s

/-- The channel with no completion callback of the instance on it (R476; log entry 13). -/
def State.channelReleased (s : State) (i : BusId) (c : Chan) : State :=
  if (s.chan c).owner = .some i then s.setChan c { s.chan c with remaining := 0, owner := .none } else s

/-- `x` with the fields the model adds to the slave context as `y` has them (log entry 21). -/
def SCtx.own (x y : SCtx) : SCtx :=
  { x with txLent := y.txLent, rxLent := y.rxLent, txSet := y.txSet, rxSet := y.rxSet }

/-- The slave context once the channel, with `left` bytes to go of the part it was configured for, has been settled (R366;
that no count goes below 0 is R15; log entry 13). -/
def SCtx.settled (x : SCtx) (left : Word) : SCtx :=
  match x.unsettled with
  | .none => x
  | .some .tx =>
    if left ≤ x.txRemaining then
      { x with txBuf := x.txBuf.map (· + (x.txRemaining - left)), txRemaining := left, unsettled := .none }
    else { x with unsettled := .none }
  | .some .rx =>
    if left < x.rxRemaining then
      { x with rxCursor := x.rxCursor + (x.rxRemaining - 1 - left), rxRemaining := left + 1, unsettled := .none }
    else { x with unsettled := .none }

/-- OUT0 holds the answer of an operation that is overwritten by the resume of a command waiting on the instance (R411;
log entry 30). -/
def State.outNoted (s : State) (i : BusId) : State :=
  s.setBus i { s.bus i with outGiven := (s.bus i).outGiven || (s.bus i).wait.isSome }

/-- What a resume leaves of OUT0: overwritten with `v`, a value the model draws, when an operation admitted while the command
waited has answered in it, and else unchanged (R101, R411; log entry 30). -/
def State.outOverwritten (s : State) (i : BusId) (v : Word) : State :=
  if (s.bus i).outGiven then
    { s with
      port := { s.port with out0 := v }
      env := { s.env with drawn := s.env.drawn + 1 } }
  else s

/-- `x`, settled when the channel `c` is this instance's (R366). -/
def State.settledCounts (s : State) (i : BusId) (c : Chan) (x : SCtx) : SCtx :=
  if (s.chan c).owner = .some i then x.settled (s.chan c).remaining else x

/-- What SlaveDmaSettle and DmaStop leave of the channel, and the call on `dmatrace` (R359, R366). -/
def State.channelSettledStopped (s : State) (i : BusId) (c : Chan) : State :=
  { (s.channelReleased i c).setChan c
      { (s.channelReleased i c).chan c with active := false, done := false, err := false } with
    dmatrace := s.dmatrace ++ [.stop c] }

/-- A buffer of a length R225 accepts which lies in the address space (U4). -/
def goodLend (s : State) (l : Lend) : Prop :=
  l.len ≠ 0 ∧ l.len ≤ s.params.lenMax ∧ l.buf.toNat + l.len.toNat ≤ 2 ^ 32

/-- What the callback of a slave leaves of an event `e` (R440): `r` is the state with its draw made, `x` the context `x0`
with the buffer it lent, `l` the record. It is unset, or it lends nothing, one send buffer or one receive buffer. -/
def slaveCalled (i : BusId) (e : Event) (s : State) (x0 : SCtx) (r : State) (x : SCtx) (l : List CbRecord) : Prop :=
  ((s.s i).cb = .none ∧ r = s ∧ x = x0 ∧ l = []) ∨
  ∃ user, (s.s i).cb = .some user ∧ r = s.drawCb.2 ∧ l = [⟨i, e, user⟩] ∧
    ((s.drawCb.1 = .nothing ∧ x = x0) ∨
      (∃ t y, s.drawCb.1 = .setTx t ∧
        x = ({ x0 with txBuf := .some t.buf, txRemaining := t.len, dmaDir := .tx } : SCtx).own y) ∨
      (∃ t y, s.drawCb.1 = .setRx t ∧
        x = ({ x0 with rxBuf := .some t.buf, rxRemaining := t.len, rxCursor := 0, dmaDir := .rx } : SCtx).own y))

/-- The callback is unset, or what it draws is nothing or one good buffer. -/
def calledQuietly (i : BusId) (s : State) : Prop :=
  (s.s i).cb = .none ∨ s.drawCb.1 = .nothing ∨
    ∃ t, goodLend s t ∧ (s.drawCb.1 = .setTx t ∨ s.drawCb.1 = .setRx t)

/-- The address of a core register: `E_BASE` and the offset R28 gives it (log entry 3). -/
def State.coreReg (s : State) (i : BusId) (k : Nat) : Word := s.params.eBase + BitVec.ofNat 32 (0x100 + 0x40 * i.val + k)

/-- The first `n` draws for polls have been made. -/
def State.pollsDrawn (s : State) (n : Nat) : State := { s with env := { s.env with polls := s.env.polls.drop n } }

/-- No event of the instance's DMA channel is pending (R446). -/
def noDmaEvent (i : BusId) (s : State) : Prop :=
  (s.chan (s.ctx i).dmaChannel).owner = .some i →
    (s.chan (s.ctx i).dmaChannel).done = false ∧ (s.chan (s.ctx i).dmaChannel).err = false

/-- A master in a transfer whose one event to serve is a completed byte (R233). -/
structure MasterByteEvent (i : BusId) (s : State) : Prop where
  role : (s.bus i).role = .master
  busy : (s.m i).idle = false
  bnd : (s.core i).bnd = true
  bndie : (s.core i).bndie = true
  won : (s.core i).arblost = false
  acked : (s.core i).rxnack = false
  foreign : (s.core i).addrmatch = false ∧ (s.core i).stopf = false
  dma : noDmaEvent i s

/-- A slave in a transfer whose one event to serve is a completed byte (R287). -/
structure SlaveByteEvent (i : BusId) (s : State) : Prop where
  role : (s.bus i).role = .slave
  open_ : (s.s i).inProgress = true
  bnd : (s.core i).bnd = true
  bndie : (s.core i).bndie = true
  acked : (s.core i).rxnack = false
  won : (s.core i).arblost = false
  noStop : (s.core i).stopf = false
  noMatch : (s.core i).addrmatch = false
  dma : noDmaEvent i s

/-- A byte event at which a slave has no byte to send or no room, and calls back (R291, R295, R305). -/
structure SlaveAsksBuffer (i : BusId) (s : State) : Prop where
  byte : SlaveByteEvent i s
  empty :
    match (s.s i).curDir with
    | .tx => (s.s i).txRemaining = 0
    | .rx => (s.s i).rxRemaining = 0

/-- A slave whose one event to serve is an address match (R288), no posted caller waiting to be resumed (R388; log entry 29). -/
structure SlaveMatchEvent (i : BusId) (s : State) : Prop where
  role : (s.bus i).role = .slave
  matched : (s.core i).addrmatch = true
  addrie : (s.core i).addrie = true
  noByte : (s.core i).bnd = false
  acked : (s.core i).rxnack = false
  noStop : (s.core i).stopf = false
  won : (s.core i).arblost = false
  dma : noDmaEvent i s
  resumed : (s.bus i).wait = .none ∨ (s.bus i).sem = 0

/-- A slave whose one event to serve is a stop (R300). -/
structure SlaveStopEvent (i : BusId) (s : State) : Prop where
  role : (s.bus i).role = .slave
  stopped : (s.core i).stopf = true
  stopie : (s.core i).stopie = true
  noByte : (s.core i).bnd = false
  acked : (s.core i).rxnack = false
  noMatch : (s.core i).addrmatch = false
  won : (s.core i).arblost = false
  dma : noDmaEvent i s

/-- The instance with its pending stop and address match as given. -/
def State.withEvents (s : State) (i : BusId) (stopf addrmatch : Bool) : State :=
  s.setBus i { s.bus i with core := { s.core i with stopf := stopf, addrmatch := addrmatch } }

/-- The address lies in the range. -/
def inRange (l : Lend) (a : Word) : Prop := l.buf.toNat ≤ a.toNat ∧ a.toNat < l.buf.toNat + l.len.toNat

/-- The instance holds a send buffer at the address: that of the transfer in flight, or of a slave one lent beside it of
which bytes remain (R94, R490; the ranges are the model's fields, log entry 21). -/
def Bus.sendHeld (b : Bus) (a : Word) : Prop :=
  ∃ l : Lend, inRange l a ∧
    ((b.role ≠ .none ∧ b.ctx.idle = false ∧ b.ctx.txLent = .some l) ∨
      (b.role = .slave ∧ b.s.txRemaining ≠ 0 ∧ b.s.txSet = .some l))

/-- The instance holds a receive buffer at the address: as above. -/
def Bus.receiveHeld (b : Bus) (a : Word) : Prop :=
  ∃ l : Lend, inRange l a ∧
    ((b.role ≠ .none ∧ b.ctx.idle = false ∧ b.ctx.rxLent = .some l) ∨
      (b.role = .slave ∧ b.s.rxRemaining ≠ 0 ∧ b.s.rxSet = .some l))

/-- The parameters keep the bounds of R7 and buffer memory its canonical form. -/
def State.wf (s : State) : Bool := s.params.wf && Memory.wf s.mem

/-! ## Runs -/

/-- The machine does the inputs in order and stops at none of them. -/
def runs : List Input → State → Res
  | [], s => .next s
  | x :: rest, s => (runInput x s).bind (runs rest)

end Machine

end Sys2Proof
end

