-- ==== Sys2Proof/Certificates/Slice0/Obligations.lean ====
section
/-! DEFINITION. Obligations.lean: the statements about the machine, for the provers. -/

open Sys2Proof Sys2Proof.Machine

/-! ## Encoding -/

/-- R100, R101: the decoder reads back every operation the encoder writes, with every operand at every value the word
admits, for every table of instances. -/
def Obligations.DecodeReadsBackEncode : Prop :=
  ∀ (n : Nat) (x : Instr), x.wellFormed n = true → decode n (encode x) = .op x

/-- R100, R101: a word that decodes is the one word of its operation, and the operation names an instance that exists. -/
def Obligations.EveryOperationHasOneWord : Prop :=
  ∀ (n : Nat) (w : Word) (x : Instr), decode n w = .op x → encode x = w ∧ x.wellFormed n = true

/-- Words written out from the table of R101, one of each kind of IMM operand (vectors V2, V4, V10, V13, V16, V17, V18). -/
def Obligations.SampleWordsDecode : Prop :=
  decode 2 0x01000305 = .op (.initMaster 0 .dma false true 3) ∧
  decode 2 0x0201000C = .op (.initSlave 1 .int false true true false 0) ∧
  decode 2 0x12000001 = .op (.mSendBlk 0 true) ∧
  decode 2 0x23010000 = .op (.sRecv 1) ∧
  decode 2 0x330000A0 = .op (.seqTxByte 0 0xA0) ∧
  decode 2 0x48010008 = .op (.pClearFlag 1 .bnd) ∧
  decode 2 0x4A000100 = .op (.pIntDisable 0 .stopie) ∧
  decode 2 0x4B0003C7 = .op (.pSetDiv 0 199 3) ∧
  decode 2 0x4F000002 = .op (.pSetDmareq 0 .rx true)

/-- R103: the host's write of a word that is no operation changes RET, which receives ERROR, and nothing else (of CMD,
where the word itself was written, nothing is said); and every other word is an operation. -/
def Obligations.IllegalWordOnlyWritesRet : Prop :=
  ∀ (s : State) (w : Word),
    (illegalWord s.params.nInst w = true →
      ∃ t, runInput (.regWrite .word s.params.eBase w) s = .next t ∧
        t = { s with port := { s.port with ret := 1, cmd := t.port.cmd } }) ∧
    (illegalWord s.params.nInst w = false → ∃ x, decode s.params.nInst w = .op x)

/-! ## Steps, reset, admission -/

/-- R100, R411: when the host's next access writes to CMD a word that decodes to `x`, the step is `exec x` on the state
in which the access has left the schedule and the word stands in CMD (log entries 1, 19). -/
def Obligations.StepRunsDecodedCommand : Prop :=
  ∀ (s : State) (w : Word) (rest : List Input) (x : Instr),
    s.env.inputs = .regWrite .word s.params.eBase w :: rest → decode s.params.nInst w = .op x →
      step s = exec x ((s.withInputs rest).setPort { s.port with cmd := w })

/-- A step takes the schedule's next input, with none the machine waits, and `withFetchWord` puts a command word in
front of the schedule (log entry 1). -/
def Obligations.StepTakesNextInput : Prop :=
  ∀ s : State,
    (s.env.inputs = [] → step s = .next s) ∧
    (∀ x rest, s.env.inputs = x :: rest → step s = runInput x (s.withInputs rest)) ∧
    (∀ (w : Word) (x : Instr), decode s.params.nInst w = .op x →
      step (s.withFetchWord 32 w.toNat) = exec x (s.setPort { s.port with cmd := w }))

/-- R58, R480: every field after reset; every operation but the two INITs is rejected; the engine waits for commands. Of the
fields the model adds to the spec's (`sel10`, `txLent`, `rxLent`, `unsettled`, `txSet`, `rxSet`, `outGiven`) nothing is said.
The reset event leaves that state too, from every state; that it spares the parameters, buffer memory and the environment is the
model's choice (log entry 23). -/
def Obligations.ResetValues : Prop :=
  (∀ i : BusId,
    State.reset.bus i =
      { role := .none
        core :=
          { moden := false, mstr := false, dir := .rx, acksel := .ack, wakeen := false, addr10 := false
            dmatxen := false, dmarxen := false, data := 0, sample := 0, step := 0, busy := false, startf := false
            bnd := false, rxnack := false, arblost := false, addrmatch := false, srw := false, stopf := false
            owner := false, bndie := false, nackie := false, arbie := false, addrie := false, stopie := false
            ownaddr := 0, pend := .none, sel := false, sel10 := (State.reset.core i).sel10 }
        m :=
          { txBuf := .none, txRemaining := 0, rxBuf := .none, rxRemaining := 0, rxCursor := 0, addr10 := false
            transport := .int, dmaChannel := 0, lastResult := .success, idle := true, blocking := false, cb := .none
            txLent := (State.reset.m i).txLent, rxLent := (State.reset.m i).rxLent, slaveAddr := 0
            stopOnCompletion := false }
        s :=
          { txBuf := .none, txRemaining := 0, rxBuf := .none, rxRemaining := 0, rxCursor := 0, addr10 := false
            transport := .int, dmaChannel := 0, lastResult := .success, idle := true, blocking := false, cb := .none
            txLent := (State.reset.s i).txLent, rxLent := (State.reset.s i).rxLent, listening := false
            inProgress := false, wakeup := false, dmaDir := .tx, curDir := .tx
            unsettled := (State.reset.s i).unsettled, txSet := (State.reset.s i).txSet
            rxSet := (State.reset.s i).rxSet }
        phase := .idle, sem := 0, wait := .none, clk := false, trace := [], cbtrace := []
        outGiven := (State.reset.bus i).outGiven } ∧
    (State.reset.core i).ready = false ∧ (State.reset.core i).irq = false) ∧
  (∀ c : Chan,
    (State.reset.chan c).active = false ∧ (State.reset.chan c).remaining = 0 ∧ (State.reset.chan c).owner = .none ∧
    (State.reset.chan c).done = false ∧ (State.reset.chan c).err = false) ∧
  State.reset.dmatrace = [] ∧
  (State.reset.port.cmd = 0 ∧ State.reset.port.arg0 = 0 ∧ State.reset.port.arg1 = 0 ∧ State.reset.port.arg2 = 0 ∧
    State.reset.port.ret = 0 ∧ State.reset.port.out0 = 0 ∧ State.reset.hstat = 0) ∧
  (∀ x : Instr, x.isInit = false → exec x State.reset = .next (State.reset.setRet .error)) ∧
  step State.reset = .next State.reset ∧
  (∀ s : State, runInput .sysReset s = .next { State.reset with params := s.params, mem := s.mem, env := s.env })

/-- R104, R433: the first failing test decides, and the command changes nothing but RET. -/
def Obligations.FailedAdmissionOnlyWritesRet : Prop :=
  ∀ (x : Instr) (s : State),
    ((s.bus x.inst).role = .none → x.isInit = false → exec x s = .next (s.setRet .error)) ∧
    ((s.bus x.inst).role ≠ .none →
      (wrongRole x (s.bus x.inst).role = true → exec x s = .next (s.setRet .error)) ∧
      (wrongRole x (s.bus x.inst).role = false →
        ((s.bus x.inst).wait.isSome = true → x.whileWaiting = false → exec x s = .next (s.setRet .busy)) ∧
        (((s.bus x.inst).wait.isSome = true → x.whileWaiting = true) →
          (s.ctx x.inst).idle = false → x.needsIdle = true → exec x s = .next (s.setRet .busy))))

/-- R225, R281, R283, R430: once admitted, a length of 0 or above LEN_MAX is rejected with ERROR and nothing changes but
RET, whatever else the command would test. -/
def Obligations.BadLengthOnlyWritesRet : Prop :=
  ∀ (i : BusId) (s : State), (s.port.arg1 = 0 ∨ s.params.lenMax < s.port.arg1) →
    (IdleMaster i s → ∀ stop,
      exec (.mSend i stop) s = .next (s.setRet .error) ∧ exec (.mRecv i stop) s = .next (s.setRet .error) ∧
      exec (.mSendBlk i stop) s = .next (s.setRet .error) ∧ exec (.mRecvBlk i stop) s = .next (s.setRet .error)) ∧
    (IdleSlave i s →
      exec (.sSend i) s = .next (s.setRet .error) ∧ exec (.sRecv i) s = .next (s.setRet .error) ∧
      exec (.sSendBlk i) s = .next (s.setRet .error) ∧ exec (.sRecvBlk i) s = .next (s.setRet .error)) ∧
    ((s.bus i).role = .slave →
      exec (.sSetTxBuf i) s = .next (s.setRet .error) ∧ exec (.sSetRxBuf i) s = .next (s.setRet .error))

/-! ## Memory -/

/-- R13: a byte of memory reads as it was last written and no other byte is touched; a write keeps the canonical form, and
two memories in it that read the same everywhere are the same list. R94, R490: the host stores and reads any byte that no
instance holds (the ranges held, log entry 21, and `rdata`, where a read delivers its value, log entry 17, are the model's); a
send buffer in flight may be read. -/
def Obligations.MemoryReadsWhatWasWritten : Prop :=
  (∀ (m : List Host.Cell) (a b : Nat) (v : Byte), Memory.wf m = true →
    memRead (memWrite m a v) b = (if b = a then v else memRead m b) ∧ Memory.wf (memWrite m a v) = true) ∧
  (∀ m n : List Host.Cell, Memory.wf m = true → Memory.wf n = true → (∀ a, memRead m a = memRead n a) → m = n) ∧
  (∀ (s : State) (a : Word) (v : Byte), (∀ i, ¬(s.bus i).receiveHeld a) →
    runInput (.memRead a) s = .next (s.setRdata ((s.load a).setWidth 32)) ∧
    ((∀ i, ¬(s.bus i).sendHeld a) →
      ∃ t, runInput (.memWrite a v) s = .next t ∧ t = { s with mem := t.mem } ∧
        (Memory.wf s.mem = true → t.load a = v ∧ Memory.wf t.mem = true ∧ ∀ b, b ≠ a → t.load b = s.load b)))

/-- R27, R28, R79, R81: the host's accesses to the register map, at `E_BASE` and the offsets of R28. ARG0 to ARG2 are read
and written. RET, OUT0 and HSTAT are read only: that a write of one changes nothing is the model's choice, and so is where a
read delivers its value, the field `rdata` (log entry 17). The core registers of an instance with a role read as the bits of
R28 and change nothing else; a read of DATA or DATALAST is the primitive and delivers the byte it reads; while the clock of
the core is off, or the read is turned away, what it delivers is free in the bits R28 lists and 0 in the others (log entry 17).
That R104 turns away no read of CTRL, STATUS, INTEN, DIV or OWNADDR is the model's choice (log entry 17). A store that changes one field of CTRL or INTEN, clears one flag
of STATUS, or writes DATA or DIV is the command of that primitive, with its test of R104 and its RET (log entry 17). A store to
CTRL, INTEN or OWNADDR of an instance with no role is turned away with ERROR whatever the core still holds (R104 (1), R468, R476;
log entry 17). -/
def Obligations.PortRegisterAccess : Prop :=
  (∀ (s : State) (v : Word),
    runInput (.regWrite .word (s.params.eBase + 0x004) v) s = .next { s with port := { s.port with arg0 := v } } ∧
    runInput (.regWrite .word (s.params.eBase + 0x008) v) s = .next { s with port := { s.port with arg1 := v } } ∧
    runInput (.regWrite .word (s.params.eBase + 0x00C) v) s = .next { s with port := { s.port with arg2 := v } } ∧
    runInput (.regWrite .word (s.params.eBase + 0x010) v) s = .next s ∧
    runInput (.regWrite .word (s.params.eBase + 0x014) v) s = .next s ∧
    runInput (.regWrite .word (s.params.eBase + 0x018) v) s = .next s ∧
    runInput (.regRead .word (s.params.eBase + 0x004)) s = .next (s.setRdata s.port.arg0) ∧
    runInput (.regRead .word (s.params.eBase + 0x008)) s = .next (s.setRdata s.port.arg1) ∧
    runInput (.regRead .word (s.params.eBase + 0x00C)) s = .next (s.setRdata s.port.arg2) ∧
    runInput (.regRead .word (s.params.eBase + 0x010)) s = .next (s.setRdata s.port.ret) ∧
    runInput (.regRead .word (s.params.eBase + 0x014)) s = .next (s.setRdata s.port.out0) ∧
    (∃ w, runInput (.regRead .word (s.params.eBase + 0x018)) s = .next (s.setRdata w) ∧
      ∀ i : BusId, w.getLsbD i.val = (s.bus i).wait.isSome)) ∧
  (∀ (s : State) (i : BusId), i.val < s.params.nInst → (s.bus i).role ≠ .none →
    ∃ ctrl status inten div : Word,
      runInput (.regRead .word (s.coreReg i 0x00)) s = .next (s.setRdata ctrl) ∧
      (ctrl.getLsbD 0 = (s.core i).moden ∧ ctrl.getLsbD 1 = (s.core i).mstr ∧
        ctrl.getLsbD 2 = ((s.core i).dir == .tx) ∧ ctrl.getLsbD 3 = ((s.core i).acksel == .nack) ∧
        ctrl.getLsbD 4 = false ∧ ctrl.getLsbD 5 = false ∧ ctrl.getLsbD 6 = false ∧ ctrl.getLsbD 7 = false ∧
        ctrl.getLsbD 8 = (s.core i).wakeen ∧ ctrl.getLsbD 9 = (s.core i).addr10 ∧
        ctrl.getLsbD 10 = (s.core i).dmatxen ∧ ctrl.getLsbD 11 = (s.core i).dmarxen ∧
        ∀ k, 12 ≤ k → ctrl.getLsbD k = false) ∧
      runInput (.regRead .word (s.coreReg i 0x04)) s = .next (s.setRdata status) ∧
      (status.getLsbD 0 = ((s.core i).moden && (s.core i).pend == .none) ∧ status.getLsbD 1 = (s.core i).busy ∧
        status.getLsbD 2 = (s.core i).startf ∧ status.getLsbD 3 = (s.core i).bnd ∧
        status.getLsbD 4 = (s.core i).rxnack ∧ status.getLsbD 5 = (s.core i).arblost ∧
        status.getLsbD 6 = (s.core i).addrmatch ∧ status.getLsbD 7 = (s.core i).srw ∧
        status.getLsbD 8 = (s.core i).stopf ∧ status.getLsbD 9 = (s.core i).owner ∧
        ∀ k, 10 ≤ k → status.getLsbD k = false) ∧
      runInput (.regRead .word (s.coreReg i 0x08)) s = .next (s.setRdata inten) ∧
      (inten.getLsbD 3 = (s.core i).bndie ∧ inten.getLsbD 4 = (s.core i).nackie ∧
        inten.getLsbD 5 = (s.core i).arbie ∧ inten.getLsbD 6 = (s.core i).addrie ∧
        inten.getLsbD 8 = (s.core i).stopie ∧
        ∀ k, k < 3 ∨ k = 7 ∨ 9 ≤ k → inten.getLsbD k = false) ∧
      runInput (.regRead .word (s.coreReg i 0x14)) s = .next (s.setRdata div) ∧
      (div.extractLsb' 0 8 = (s.core i).sample ∧ div.extractLsb' 8 4 = (s.core i).step ∧
        div.extractLsb' 12 20 = 0) ∧
      runInput (.regRead .word (s.coreReg i 0x18)) s = .next (s.setRdata ((s.core i).ownaddr.setWidth 32))) ∧
  (∀ (s : State) (i : BusId) (k : Nat) (listed : Word), i.val < s.params.nInst → (s.bus i).role = .none →
    (k, listed) ∈ [(0x00, 0xF0F), (0x04, 0x3FF), (0x08, 0x178), (0x14, 0xFFF), (0x18, 0x3FF)] →
      ∃ w, w &&& listed = w ∧ runInput (.regRead .word (s.coreReg i k)) s =
        .next { s with
          port := { s.port with rdata := w }
          env := { s.env with drawn := s.env.drawn + 1 } }) ∧
  (∀ (s : State) (i : BusId), i.val < s.params.nInst → IdleAt i s →
    (∃ t, exec (.pReadData i) s = .next t ∧
      runInput (.regRead .word (s.coreReg i 0x0C)) s = .next (t.setRdata ((s.core i).data.setWidth 32))) ∧
    (∃ t, exec (.pReadLast i) s = .next t ∧
      runInput (.regRead .word (s.coreReg i 0x10)) s = .next (t.setRdata ((s.core i).data.setWidth 32)))) ∧
  (∀ (s : State) (i : BusId) (k : Nat) (x : Instr), i.val < s.params.nInst →
    (s.bus i).role = .none ∨ (s.bus i).wait.isSome = true ∨ (s.ctx i).idle = false →
    (k = 0x0C ∧ x = .pReadData i) ∨ (k = 0x10 ∧ x = .pReadLast i) →
      ∃ t w, exec x s = .next t ∧ w &&& 0xFF = w ∧
        runInput (.regRead .word (s.coreReg i k)) s =
          .next { t with
            port := { t.port with rdata := w }
            env := { t.env with drawn := t.env.drawn + 1 } }) ∧
  (∀ (s : State) (i : BusId) (k : Nat) (v : Word), i.val < s.params.nInst → (s.bus i).role = .none →
    k = 0x00 ∨ k = 0x08 ∨ k = 0x18 →
      runInput (.regWrite .word (s.coreReg i k) v) s = .next (s.setRet .error)) ∧
  (∀ (s : State) (i : BusId) (v : Word), i.val < s.params.nInst →
    (∀ (m : Word) (x : Instr),
      (m, x) ∈ [(0x001, if (s.core i).moden then Instr.pModuleDisable i else .pModuleEnable i),
        (0x004, .pSetDir i (if (s.core i).dir = .tx then .rx else .tx)),
        (0x008, .pSetAck i (if (s.core i).acksel = .ack then .nack else .ack)),
        (0x010, .pStart i), (0x020, .pRstart i), (0x040, .pStop i),
        (0x400, .pSetDmareq i .tx (!(s.core i).dmatxen)), (0x800, .pSetDmareq i .rx (!(s.core i).dmarxen))] →
      v &&& 0xF7F = (s.core i).ctrlWord ^^^ m → runInput (.regWrite .word (s.coreReg i 0x00) v) s = exec x s) ∧
    (∀ (m : Word) (f : Sticky),
      (m, f) ∈ [((0x004 : Word), Sticky.startf), (0x008, .bnd), (0x010, .rxnack), (0x020, .arblost),
        (0x040, .addrmatch), (0x100, .stopf)] →
      v &&& 0x17C = m → runInput (.regWrite .word (s.coreReg i 0x04) v) s = exec (.pClearFlag i f) s) ∧
    (∀ (m : Word) (src : IntSrc) (on : Bool),
      (m, src, on) ∈ [((0x008 : Word), IntSrc.bndie, (s.core i).bndie), (0x010, .nackie, (s.core i).nackie),
        (0x020, .arbie, (s.core i).arbie), (0x040, .addrie, (s.core i).addrie),
        (0x100, .stopie, (s.core i).stopie)] →
      v &&& 0x178 = (s.core i).intenWord ^^^ m →
        runInput (.regWrite .word (s.coreReg i 0x08) v) s =
          exec (if on then .pIntDisable i src else .pIntEnable i src) s) ∧
    runInput (.regWrite .word (s.coreReg i 0x0C) v) s = exec (.pWriteData i (v.extractLsb' 0 8)) s ∧
    runInput (.regWrite .word (s.coreReg i 0x14) v) s =
      exec (.pSetDiv i (v.extractLsb' 0 8) (v.extractLsb' 8 4)) s)


/-- The accesses and commands 93_implementation_defined.md tells a model to refuse, each by name: a host access to a lent
buffer (U1, R94, R490; the ranges held are the model's `txLent`, `rxLent`, `txSet` and `rxSet`, log entry 21), a buffer past
the end of the address space (U4), a store to a core register that is not the one-field access of a primitive, among them one
to STATUS that clears no flag and every one to DATALAST (U5; that they are refused, where R28 alone says that live flags and
DATALAST ignore writes, is the model's choice, log entries 16 and 17), a DMA channel of another instance (U6, R503), a narrow or
misaligned register access (U9, R79), a slave buffer replaced while the channel moves it (U11, R504); the buffer that a slave's callback lends
at an address match or a byte event likewise (U4, U11, R440; log entry 15). Beside them a read of CMD, which R27 calls write-only,
is refused, and an access at an offset at which R28 lists no register faults (log entry 17). -/
def Obligations.RefusalsByName : Prop :=
  (∀ (i : BusId) (s : State) (a : Word) (v : Byte) (l : Lend),
    l.buf.toNat ≤ a.toNat → a.toNat < l.buf.toNat + l.len.toNat →
    ((s.bus i).role ≠ .none → (s.ctx i).idle = false →
      ((s.ctx i).txLent = .some l → runInput (.memWrite a v) s = .refused (.lentBuffer a)) ∧
      ((s.ctx i).rxLent = .some l →
        runInput (.memWrite a v) s = .refused (.lentBuffer a) ∧ runInput (.memRead a) s = .refused (.lentBuffer a))) ∧
    ((s.bus i).role = .slave →
      ((s.s i).txRemaining ≠ 0 → (s.s i).txSet = .some l → runInput (.memWrite a v) s = .refused (.lentBuffer a)) ∧
      ((s.s i).rxRemaining ≠ 0 → (s.s i).rxSet = .some l →
        runInput (.memWrite a v) s = .refused (.lentBuffer a) ∧
        runInput (.memRead a) s = .refused (.lentBuffer a)))) ∧
  (∀ (i : BusId) (s : State), s.port.arg1 ≠ 0 → s.port.arg1 ≤ s.params.lenMax →
    2 ^ 32 < s.port.arg0.toNat + s.port.arg1.toNat →
    (IdleMaster i s → ∀ stop,
      exec (.mSend i stop) s = .refused (.bufferPastEnd s.port.arg0 s.port.arg1) ∧
      exec (.mRecv i stop) s = .refused (.bufferPastEnd s.port.arg0 s.port.arg1) ∧
      exec (.mSendBlk i stop) s = .refused (.bufferPastEnd s.port.arg0 s.port.arg1) ∧
      exec (.mRecvBlk i stop) s = .refused (.bufferPastEnd s.port.arg0 s.port.arg1)) ∧
    (IdleSlave i s →
      exec (.sSend i) s = .refused (.bufferPastEnd s.port.arg0 s.port.arg1) ∧
      exec (.sRecv i) s = .refused (.bufferPastEnd s.port.arg0 s.port.arg1) ∧
      exec (.sSendBlk i) s = .refused (.bufferPastEnd s.port.arg0 s.port.arg1) ∧
      exec (.sRecvBlk i) s = .refused (.bufferPastEnd s.port.arg0 s.port.arg1)) ∧
    ((s.bus i).role = .slave →
      exec (.sSetTxBuf i) s = .refused (.bufferPastEnd s.port.arg0 s.port.arg1) ∧
      exec (.sSetRxBuf i) s = .refused (.bufferPastEnd s.port.arg0 s.port.arg1))) ∧
  (∀ (i : BusId) (s : State) (user : Word) (l : Lend),
    (s.s i).cb = .some user → s.drawCb.1 = .setTx l ∨ s.drawCb.1 = .setRx l → l.len ≠ 0 → l.len ≤ s.params.lenMax →
    (2 ^ 32 < l.buf.toNat + l.len.toNat → SlaveMatchEvent i s ∨ SlaveAsksBuffer i s →
      runInput (.dispatch i) s = .refused (.bufferPastEnd l.buf l.len)) ∧
    (l.buf.toNat + l.len.toNat ≤ 2 ^ 32 → SlaveAsksBuffer i s → (s.s i).transport = .dma →
      (s.chan (s.s i).dmaChannel).active = true → (s.chan (s.s i).dmaChannel).owner = .some i →
      runInput (.dispatch i) s = .refused (.bufferMoving i))) ∧
  (∀ (i : BusId) (s : State) (v : Word), i.val < s.params.nInst →
    ((s.bus i).role ≠ .none → (v ^^^ (s.core i).ctrlWord) &&& 0xF7F ∉ [(0 : Word), 0x001, 0x004, 0x008, 0x010, 0x020, 0x040, 0x400, 0x800] →
      runInput (.regWrite .word (s.coreReg i 0x00) v) s =
        .refused (.notOneField (BitVec.ofNat 32 (0x100 + 0x40 * i.val)))) ∧
    (v &&& 0x17C ∉ [(0x004 : Word), 0x008, 0x010, 0x020, 0x040, 0x100] →
      runInput (.regWrite .word (s.coreReg i 0x04) v) s =
        .refused (.notOneField (BitVec.ofNat 32 (0x104 + 0x40 * i.val)))) ∧
    ((s.bus i).role ≠ .none → (v ^^^ (s.core i).intenWord) &&& 0x178 ∉ [(0 : Word), 0x008, 0x010, 0x020, 0x040, 0x100] →
      runInput (.regWrite .word (s.coreReg i 0x08) v) s =
        .refused (.notOneField (BitVec.ofNat 32 (0x108 + 0x40 * i.val)))) ∧
    runInput (.regWrite .word (s.coreReg i 0x10) v) s =
      .refused (.notOneField (BitVec.ofNat 32 (0x110 + 0x40 * i.val))) ∧
    ((s.bus i).role ≠ .none → v.extractLsb' 0 10 ≠ (s.core i).ownaddr →
      runInput (.regWrite .word (s.coreReg i 0x18) v) s =
        .refused (.notOneField (BitVec.ofNat 32 (0x118 + 0x40 * i.val))))) ∧
  (∀ (i : BusId) (a10 cb lis wk : Bool) (ch : Chan) (s : State),
    (s.bus i).role = .none → (s.bus i).wait = .none → ¬badConfig s .dma a10 ch → channelTaken i ch s = true →
      exec (.initMaster i .dma a10 cb ch) s = .refused (.channelShared ch) ∧
      exec (.initSlave i .dma a10 cb lis wk ch) s = .refused (.channelShared ch)) ∧
  (∀ (s : State) (w : Width) (a v : Word), w ≠ .word ∨ (a - s.params.eBase).toNat % 4 ≠ 0 →
    runInput (.regWrite w a v) s = .refused (.notWholeWord a) ∧
    runInput (.regRead w a) s = .refused (.notWholeWord a)) ∧
  (∀ (i : BusId) (s : State), (s.bus i).role = .slave → GoodBuffer s → (s.s i).transport = .dma →
    (s.chan (s.s i).dmaChannel).active = true → (s.chan (s.s i).dmaChannel).owner = .some i →
      exec (.sSetTxBuf i) s = .refused (.bufferMoving i) ∧ exec (.sSetRxBuf i) s = .refused (.bufferMoving i)) ∧
  (∀ (s : State) (off v : Word),
    runInput (.regRead .word s.params.eBase) s = .refused (.writeOnly 0) ∧
    (off.toNat % 4 = 0 → 0x1C ≤ off.toNat →
      off.toNat < 0x100 ∨ 0x100 + 0x40 * min s.params.nInst 16 ≤ off.toNat ∨ 0x1C ≤ (off.toNat - 0x100) % 0x40 →
      runInput (.regRead .word (s.params.eBase + off)) s = .fault (.noSuchRegister off) ∧
      runInput (.regWrite .word (s.params.eBase + off) v) s = .fault (.noSuchRegister off)))


/-! ## Invariants -/

/-- The state after reset keeps every invariant below. -/
def Obligations.ResetKeepsInvariants : Prop := Inv State.reset ∧ State.reset.wf = true

/-- Every step of every agent keeps buffer memory in its canonical form and never writes the parameters (R7, log
entries 3, 4). -/
def Obligations.StepKeepsMemoryForm : Prop :=
  ∀ s t : State, s.wf = true → step s = .next t → t.wf = true ∧ t.params = s.params

/-- R26, R158, R171: every step of every agent keeps the ownership of the bus as it should be. -/
def Obligations.StepKeepsOwnership : Prop :=
  ∀ s t : State, (∀ i, (s.bus i).core.ok = true) → step s = .next t → ∀ i, (t.bus i).core.ok = true

/-- R32 (a), (c), (d): every step of every agent keeps the buffers of the master contexts consistent. -/
def Obligations.StepKeepsMasterBuffers : Prop :=
  ∀ s t : State, (∀ i, (s.bus i).m.ok = true) → step s = .next t → ∀ i, (t.bus i).m.ok = true

/-- R34, R46 to R48, R51, R357 to R359, R388, R390 (c), R468, R476: every step of every agent keeps all the invariants of the
engine: those above, the buffers of the slave contexts, the phase of R48, the books of the blocking commands, the clock, the
channels; and, until its posted caller is resumed, a result that is not BUSY and a slave in no transfer, a one-shot slave with
its address match off. That this last part is kept on a slave that always listens is the model's reading against R287 taken alone
(log entry 29); that a DEINIT takes the owner off its channel is log entry 13. -/
def Obligations.StepKeepsInv : Prop :=
  ∀ s t : State, Inv s → step s = .next t → Inv t


/-! ## Lifecycle and configuration -/

/-- R400, R330, R336: INIT_MASTER, in each of its cases, on an instance on which no command is suspended and, for DMA, on
a channel no other instance is bound to. -/
def Obligations.InitMasterResult : Prop :=
  ∀ (i : BusId) (tr : Transport) (a10 cb : Bool) (ch : Chan) (s : State),
    s.params.wf = true → (s.bus i).wait = .none →
    ((s.bus i).role ≠ .none ∨ badConfig s tr a10 ch →
      exec (.initMaster i tr a10 cb ch) s = .next (s.setRet .error)) ∧
    ((s.bus i).role = .none → ¬badConfig s tr a10 ch → (tr = .dma → channelTaken i ch s = false) →
      ∃ best, solve s.params (s.clkIn i).toNat s.port.arg0.toNat = .some best ∧
        exec (.initMaster i tr a10 cb ch) s = .next
          ((s.setBus i
            { s.bus i with
              clk := true
              core := { mstr := true, moden := true, sample := BitVec.ofNat 8 best.sample, step := BitVec.ofNat 4 best.step }
              m :=
                { slaveAddr := s.port.arg1.setWidth 10, addr10 := a10, transport := tr, dmaChannel := ch
                  cb := if cb then .some s.port.arg2 else .none }
              role := .master, sem := 0, wait := .none, phase := .idle }).setRet .success))

/-- R401, R284: INIT_SLAVE, in each of its cases, on an instance on which no command is suspended and, for DMA, on a
channel no other instance is bound to. -/
def Obligations.InitSlaveResult : Prop :=
  ∀ (i : BusId) (tr : Transport) (a10 cb lis wk : Bool) (ch : Chan) (s : State),
    s.params.wf = true → (s.bus i).wait = .none →
    ((s.bus i).role ≠ .none ∨ badConfig s tr a10 ch →
      exec (.initSlave i tr a10 cb lis wk ch) s = .next (s.setRet .error)) ∧
    ((s.bus i).role = .none → ¬badConfig s tr a10 ch → (tr = .dma → channelTaken i ch s = false) →
      ∃ best, solve s.params (s.clkIn i).toNat s.port.arg0.toNat = .some best ∧
        exec (.initSlave i tr a10 cb lis wk ch) s = .next
          ((s.setBus i
            { s.bus i with
              clk := true
              core :=
                { moden := true, sample := BitVec.ofNat 8 best.sample, step := BitVec.ofNat 4 best.step
                  ownaddr := s.port.arg1.setWidth 10, addr10 := a10, wakeen := wk
                  addrie := lis, stopie := lis, nackie := lis, bndie := lis }
              s :=
                { addr10 := a10, transport := tr, dmaChannel := ch, listening := lis, wakeup := wk
                  cb := if cb then .some s.port.arg2 else .none }
              role := .slave, sem := 0, wait := .none, phase := .idle }).setRet .success))

/-- R402: DEINIT first does what M_ABORT or S_ABORT does (nothing, when nothing is in flight), then disables the core and
unbinds the context; on an instance not initialised it is ERROR, while a command is suspended BUSY. That its completion
callback is taken off the channel is the model's reading of R476 (log entry 13). -/
def Obligations.DeinitResult : Prop :=
  ∀ (i : BusId) (s : State),
    ((s.bus i).role = .none → exec (.deinit i) s = .next (s.setRet .error)) ∧
    ((s.bus i).role ≠ .none → (s.bus i).wait.isSome = true → exec (.deinit i) s = .next (s.setRet .busy)) ∧
    ((s.bus i).role = .master → (s.bus i).wait = .none →
      ∃ u, exec (.mAbort i) s = .next u ∧
        exec (.deinit i) s = .next ((u.channelReleased i (s.m i).dmaChannel).setBus i
          { u.bus i with
            core :=
              { (u.core i).disable with
                mstr := false, bndie := false, nackie := false, arbie := false, addrie := false, stopie := false }
            m := { u.m i with cb := .none }
            role := .none, phase := .idle, sem := 0, clk := false })) ∧
    ((s.bus i).role = .slave → (s.bus i).wait = .none →
      ∃ u, exec (.sAbort i) s = .next u ∧
        exec (.deinit i) s = .next ((u.channelReleased i (s.s i).dmaChannel).setBus i
          { u.bus i with
            core :=
              { (u.core i).disable with
                mstr := false, bndie := false, nackie := false, arbie := false, addrie := false, stopie := false
                dmatxen := false, dmarxen := false }
            s := { u.s i with cb := .none }
            role := .none, phase := .idle, sem := 0, clk := false }))

/-- R403, R405, R336: SET_RATE on an idle instance: rate 0 is ERROR and changes nothing; any other rate writes the pair
the solver finds between a disable and an enable of the module; on a busy instance it is BUSY. GET_RATE answers the rate
the dividers give, at any time on an initialised instance (that SET_RATE goes by the idle flag also on a slave in a transfer,
which R336 overlooks, is log entry 38); where a command is suspended, that OUT0 holds an answer the
resume will overwrite is noted (R411, log entry 30). On an instance not initialised both are ERROR. -/
def Obligations.RateCommands : Prop :=
  ∀ (i : BusId) (s : State),
    ((s.bus i).role = .none →
      exec (.setRate i) s = .next (s.setRet .error) ∧ exec (.getRate i) s = .next (s.setRet .error)) ∧
    ((s.bus i).role ≠ .none → (s.bus i).wait.isSome = true ∨ (s.ctx i).idle = false →
      exec (.setRate i) s = .next (s.setRet .busy)) ∧
    (s.params.wf = true → IdleAt i s →
      (s.port.arg0 = 0 → exec (.setRate i) s = .next (s.setRet .error)) ∧
      (s.port.arg0 ≠ 0 →
        ∃ best, solve s.params (s.clkIn i).toNat s.port.arg0.toNat = .some best ∧
          exec (.setRate i) s = .next
            ((s.setBus i
              { s.bus i with
                core :=
                  { (s.core i).disable with
                    sample := BitVec.ofNat 8 best.sample, step := BitVec.ofNat 4 best.step, moden := true } }).setRet
              .success))) ∧
    ((s.bus i).role ≠ .none →
      exec (.getRate i) s = .next (((s.outNoted i).setOut0 (BitVec.ofNat 32
        ((s.clkIn i).toNat / (((s.core i).step.toNat + 1) * ((s.core i).sample.toNat + 1) * 2)))).setRet .success))

/-- R333, R330: the solver's pair has the smallest error over the whole rectangle of pairs (which R333 derives from R330); on
equal error the smaller step wins (also where steps tie below every reachable rate, against R337 (b): log entry 39); within a step it is the smallest sample whose rate is not above the target, or the sample before it when
that is strictly closer. -/
def Obligations.SolverFindsClosestRate : Prop :=
  ∀ (p : Params) (clk target : Nat), p.wf = true →
    ∃ best, solve p clk target = .some best ∧
      (p.stepMin.toNat ≤ best.step ∧ best.step ≤ p.stepMax.toNat) ∧
      (p.sampleMin.toNat ≤ best.sample ∧ best.sample ≤ p.sampleMax.toNat) ∧
      (∀ st sa, p.stepMin.toNat ≤ st → st ≤ p.stepMax.toNat → p.sampleMin.toNat ≤ sa → sa ≤ p.sampleMax.toNat →
        absDiff (rate clk best.step best.sample) target ≤ absDiff (rate clk st sa) target ∧
        (st < best.step → absDiff (rate clk best.step best.sample) target < absDiff (rate clk st sa) target)) ∧
      ∃ lo, p.sampleMin.toNat ≤ lo ∧ lo ≤ p.sampleMax.toNat ∧
        (rate clk best.step lo ≤ target ∨ lo = p.sampleMax.toNat) ∧
        (∀ x, p.sampleMin.toNat ≤ x → x < lo → target < rate clk best.step x) ∧
        ((best.sample = lo ∧
            (p.sampleMin.toNat < lo →
              absDiff (rate clk best.step lo) target ≤ absDiff (rate clk best.step (lo - 1)) target)) ∨
          (best.sample + 1 = lo ∧
            absDiff (rate clk best.step (lo - 1)) target < absDiff (rate clk best.step lo) target))

/-- R338, which the spec derives from R330 and R331: for a target between the slowest and the fastest rate of the step chosen,
the error is at most the gap to one of the two neighbouring samples. With one sample value to choose from, which has no
neighbour, those two rates are the one rate and there is no error. -/
def Obligations.SolverErrorBound : Prop :=
  ∀ (p : Params) (clk target : Nat) (best : Candidate), p.wf = true → solve p clk target = .some best →
    rate clk best.step p.sampleMax.toNat ≤ target → target ≤ rate clk best.step p.sampleMin.toNat →
      (p.sampleMin.toNat < p.sampleMax.toNat →
        (p.sampleMin.toNat < best.sample ∧
          absDiff (rate clk best.step best.sample) target ≤
            rate clk best.step (best.sample - 1) - rate clk best.step best.sample) ∨
        (best.sample < p.sampleMax.toNat ∧
          absDiff (rate clk best.step best.sample) target ≤
            rate clk best.step best.sample - rate clk best.step (best.sample + 1))) ∧
      (p.sampleMin.toNat = p.sampleMax.toNat → rate clk best.step best.sample = target)

/-- R406, R407: SET_TARGET_ADDR on an idle master and SET_OWN_ADDR on an idle slave, in and out of range; ERROR in the
other role, BUSY on an instance that is not idle. -/
def Obligations.SetAddressResult : Prop :=
  ∀ (i : BusId) (a10 : Bool) (s : State),
    ((s.bus i).role ≠ .master → exec (.setTargetAddr i a10) s = .next (s.setRet .error)) ∧
    ((s.bus i).role ≠ .slave → exec (.setOwnAddr i a10) s = .next (s.setRet .error)) ∧
    ((s.bus i).wait.isSome = true ∨ (s.ctx i).idle = false →
      ((s.bus i).role = .master → exec (.setTargetAddr i a10) s = .next (s.setRet .busy)) ∧
      ((s.bus i).role = .slave → exec (.setOwnAddr i a10) s = .next (s.setRet .busy))) ∧
    (IdleMaster i s →
      ((if a10 then 0x3FF else 0x7F) < s.port.arg0.toNat →
        exec (.setTargetAddr i a10) s = .next (s.setRet .error)) ∧
      (s.port.arg0.toNat ≤ (if a10 then 0x3FF else 0x7F) →
        exec (.setTargetAddr i a10) s = .next
          ((s.setBus i
            { s.bus i with m := { s.m i with slaveAddr := s.port.arg0.setWidth 10, addr10 := a10 } }).setRet
            .success))) ∧
    (IdleSlave i s →
      ((if a10 then 0x3FF else 0x7F) < s.port.arg0.toNat →
        exec (.setOwnAddr i a10) s = .next (s.setRet .error)) ∧
      (s.port.arg0.toNat ≤ (if a10 then 0x3FF else 0x7F) →
        exec (.setOwnAddr i a10) s = .next
          ((s.setBus i
            { s.bus i with
              core := { s.core i with ownaddr := s.port.arg0.setWidth 10, addr10 := a10 }
              s := { s.s i with addr10 := a10 } }).setRet .success)))

/-- R408: SET_CALLBACK, at any time on an initialised instance, changes the callback of the bound context; on an instance
not initialised it is ERROR. -/
def Obligations.SetCallbackResult : Prop :=
  ∀ (i : BusId) (install : Bool) (s : State),
    ((s.bus i).role = .none → exec (.setCallback i install) s = .next (s.setRet .error)) ∧
    ((s.bus i).role = .master →
      exec (.setCallback i install) s = .next
        ((s.setBus i
          { s.bus i with m := { s.m i with cb := if install then .some s.port.arg0 else .none } }).setRet .success)) ∧
    ((s.bus i).role = .slave →
      exec (.setCallback i install) s = .next
        ((s.setBus i
          { s.bus i with s := { s.s i with cb := if install then .some s.port.arg0 else .none } }).setRet .success))

/-- R409: IRQ_ENTRY runs one dispatch and answers SUCCESS; on an instance not initialised it is ERROR. It completes on
every master, and on a slave whose callback is unset (one whose callback lends a buffer the spec refuses stops); with no
enabled event pending nothing changes but RET. -/
def Obligations.IrqEntryRunsOneDispatch : Prop :=
  ∀ (i : BusId) (s : State),
    ((s.bus i).role = .none → exec (.irqEntry i) s = .next (s.setRet .error)) ∧
    (∀ t, (s.bus i).role ≠ .none → runInput (.dispatch i) s = .next t →
      exec (.irqEntry i) s = .next (t.setRet .success)) ∧
    ((s.bus i).role = .master ∨ ((s.bus i).role = .slave ∧ (s.s i).cb = .none) →
      ∃ t, runInput (.dispatch i) s = .next t ∧ exec (.irqEntry i) s = .next (t.setRet .success)) ∧
    ((s.bus i).role ≠ .none → (s.core i).irq = false →
      ((s.chan (s.ctx i).dmaChannel).owner ≠ .some i ∨
        ((s.chan (s.ctx i).dmaChannel).done = false ∧ (s.chan (s.ctx i).dmaChannel).err = false)) →
      exec (.irqEntry i) s = .next (s.setRet .success))

/-! ## Primitives -/

/-- R141 to R143: the three requests are accepted by a core whose state lets it act, and do nothing otherwise. -/
def Obligations.PrimitiveRequests : Prop :=
  ∀ (i : BusId) (s : State), IdleAt i s →
    exec (.pStart i) s = .next
      ((s.setBus i
        { s.bus i with
          core :=
            { s.core i with
              pend :=
                if (s.core i).moden = true ∧ (s.core i).mstr = true ∧ (s.core i).owner = false then .start
                else (s.core i).pend } }).setRet .success) ∧
    exec (.pRstart i) s = .next
      ((s.setBus i
        { s.bus i with
          core :=
            { s.core i with
              pend := if (s.core i).moden = true ∧ (s.core i).owner = true then .rstart else (s.core i).pend } }).setRet
        .success) ∧
    exec (.pStop i) s = .next
      ((s.setBus i
        { s.bus i with
          core :=
            { s.core i with
              pend := if (s.core i).moden = true ∧ (s.core i).owner = true then .stop else (s.core i).pend } }).setRet
        .success)

/-- R144, R145, R148 to R150: direction, acknowledge and the data register. -/
def Obligations.PrimitiveDataAccess : Prop :=
  ∀ (i : BusId) (s : State), IdleAt i s →
    (∀ d, exec (.pSetDir i d) s = .next
      ((s.setBus i { s.bus i with core := { s.core i with dir := d } }).setRet .success)) ∧
    (∀ a, exec (.pSetAck i a) s = .next
      ((s.setBus i { s.bus i with core := { s.core i with acksel := a } }).setRet .success)) ∧
    (∀ b, exec (.pWriteData i b) s = .next
      ((s.setBus i
        { s.bus i with
          core :=
            { s.core i with
              data := b, bnd := false
              pend :=
                if (s.core i).moden = true ∧ (s.core i).dir = .tx ∧
                  ((s.core i).owner = true ∨ ((s.core i).sel = true ∧ (s.core i).srw = true))
                then .txByte b else (s.core i).pend } }).setRet .success)) ∧
    exec (.pReadData i) s = .next
      (((s.setBus i
        { s.bus i with
          core :=
            { s.core i with
              bnd := false
              pend :=
                if (s.core i).moden = true ∧ (s.core i).mstr = true ∧ (s.core i).owner = true ∧ (s.core i).dir = .rx
                then .rxByte else (s.core i).pend } }).setOut0 ((s.core i).data.setWidth 32)).setRet .success) ∧
    exec (.pReadLast i) s = .next
      (((s.setBus i { s.bus i with core := { s.core i with dir := .tx, bnd := false } }).setOut0
        ((s.core i).data.setWidth 32)).setRet .success)

/-- R146, R151, R152, R156: a flag or an enable is changed by the primitive that names it, and no other bit is. -/
def Obligations.PrimitiveFlagsAndEnables : Prop :=
  ∀ (i : BusId) (s : State), IdleAt i s →
    (∀ f, exec (.pClearFlag i f) s = .next
      ((s.setBus i
        { s.bus i with
          core :=
            { s.core i with
              startf := (s.core i).startf && f != .startf
              bnd := (s.core i).bnd && f != .bnd
              rxnack := (s.core i).rxnack && f != .rxnack
              arblost := (s.core i).arblost && f != .arblost
              addrmatch := (s.core i).addrmatch && f != .addrmatch
              stopf := (s.core i).stopf && f != .stopf } }).setRet .success)) ∧
    (∀ x, exec (.pIntEnable i x) s = .next
      ((s.setBus i
        { s.bus i with
          core :=
            { s.core i with
              bndie := (s.core i).bndie || x == .bndie
              nackie := (s.core i).nackie || x == .nackie
              arbie := (s.core i).arbie || x == .arbie
              addrie := (s.core i).addrie || x == .addrie
              stopie := (s.core i).stopie || x == .stopie } }).setRet .success)) ∧
    (∀ x, exec (.pIntDisable i x) s = .next
      ((s.setBus i
        { s.bus i with
          core :=
            { s.core i with
              bndie := (s.core i).bndie && x != .bndie
              nackie := (s.core i).nackie && x != .nackie
              arbie := (s.core i).arbie && x != .arbie
              addrie := (s.core i).addrie && x != .addrie
              stopie := (s.core i).stopie && x != .stopie } }).setRet .success)) ∧
    (∀ d en, exec (.pSetDmareq i d en) s = .next
      ((s.setBus i
        { s.bus i with
          core :=
            { s.core i with
              dmatxen := if d = .tx then en else (s.core i).dmatxen
              dmarxen := if d = .rx then en else (s.core i).dmarxen } }).setRet .success))

/-- R153 to R155, R171: the module switch and the dividers, which only a disabled module takes. That a pair outside the ranges
of R7 is refused only where it would take effect (U7), and answers SUCCESS on an enabled module, is the model's choice (log
entry 16). Of the model's own `sel10` nothing is said. -/
def Obligations.PrimitiveDividerAndModule : Prop :=
  ∀ (i : BusId) (s : State), IdleAt i s →
    (∀ sa st, (s.core i).moden = true → exec (.pSetDiv i sa st) s = .next (s.setRet .success)) ∧
    (∀ sa st, (s.core i).moden = false →
      (s.params.sampleMin ≤ sa ∧ sa ≤ s.params.sampleMax ∧ s.params.stepMin ≤ st ∧ st ≤ s.params.stepMax →
        exec (.pSetDiv i sa st) s = .next
          ((s.setBus i { s.bus i with core := { s.core i with sample := sa, step := st } }).setRet .success)) ∧
      (¬(s.params.sampleMin ≤ sa ∧ sa ≤ s.params.sampleMax ∧ s.params.stepMin ≤ st ∧ st ≤ s.params.stepMax) →
        exec (.pSetDiv i sa st) s = .refused (.dividerOutOfRange sa st))) ∧
    exec (.pModuleEnable i) s = .next
      ((s.setBus i { s.bus i with core := { s.core i with moden := true } }).setRet .success) ∧
    (∃ r, exec (.pModuleDisable i) s = .next
      ((s.setBus i
        { s.bus i with
          core :=
            { s.core i with
              moden := false, pend := .none, busy := false, owner := false, sel := false, sel10 := r } }).setRet
        .success))

/-- R147: P_GET_FLAGS answers the STATUS word, bit by bit. -/
def Obligations.GetFlagsReadsStatus : Prop :=
  ∀ (i : BusId) (s : State), IdleAt i s →
    ∃ w, exec (.pGetFlags i) s = .next ((s.setOut0 w).setRet .success) ∧
      w.getLsbD 0 = ((s.core i).moden && (s.core i).pend == .none) ∧ w.getLsbD 1 = (s.core i).busy ∧
      w.getLsbD 2 = (s.core i).startf ∧ w.getLsbD 3 = (s.core i).bnd ∧ w.getLsbD 4 = (s.core i).rxnack ∧
      w.getLsbD 5 = (s.core i).arblost ∧ w.getLsbD 6 = (s.core i).addrmatch ∧ w.getLsbD 7 = (s.core i).srw ∧
      w.getLsbD 8 = (s.core i).stopf ∧ w.getLsbD 9 = (s.core i).owner ∧ ∀ k, 10 ≤ k → w.getLsbD k = false

/-! ## The core and the wires -/

/-- R160 to R166, R169: a bus step of an enabled core completes the request that is pending, as the answer drawn says. That a
start pending on a busy bus stays as it is and the step changes nothing is the model's reading of R160 and R173 (log entry
7), and that a slave's byte completes while R170 does not let a stop through is its reading of R169 and R170 (log entry 31). -/
def Obligations.BusStepCompletesRequest : Prop :=
  ∀ (i : BusId) (s : State) (d : BusDraw), (s.core i).moden = true →
    ((s.core i).pend = .start → (s.core i).busy = true → runInput (.bus i d) s = .next s) ∧
    ((s.core i).pend = .start → (s.core i).busy = false →
      runInput (.bus i d) s = .next (s.setBus i
        { s.bus i with
          trace := (s.bus i).trace ++ [.s]
          core := { s.core i with busy := true, owner := true, startf := true, pend := .none } })) ∧
    ((s.core i).pend = .rstart →
      runInput (.bus i d) s = .next (s.setBus i
        { s.bus i with
          trace := (s.bus i).trace ++ [.sr]
          core := { s.core i with startf := true, pend := .none } })) ∧
    ((s.core i).pend = .stop →
      runInput (.bus i d) s = .next (s.setBus i
        { s.bus i with
          trace := (s.bus i).trace ++ [.p]
          core := { s.core i with busy := false, owner := false, pend := .none } })) ∧
    (∀ b, (s.core i).pend = .txByte b → (s.core i).owner = true →
      (d.tx = .acked → runInput (.bus i d) s = .next (s.setBus i
        { s.bus i with
          trace := (s.bus i).trace ++ [.w b .ack]
          core := { s.core i with bnd := true, pend := .none } })) ∧
      (d.tx = .nacked → runInput (.bus i d) s = .next (s.setBus i
        { s.bus i with
          trace := (s.bus i).trace ++ [.w b .nack, .p]
          core := { s.core i with bnd := true, rxnack := true, pend := .none, busy := false, owner := false } })) ∧
      (d.tx = .lost → runInput (.bus i d) s = .next (s.setBus i
        { s.bus i with
          trace := (s.bus i).trace ++ [.x]
          core := { s.core i with arblost := true, owner := false, pend := .none } }))) ∧
    ((s.core i).pend = .rxByte → (s.core i).owner = true →
      runInput (.bus i d) s = .next (s.setBus i
        { s.bus i with
          trace := (s.bus i).trace ++ [.r d.rxbyte (s.core i).acksel]
          core := { s.core i with data := d.rxbyte, bnd := true, pend := .none } })) ∧
    (∀ b, (s.core i).pend = .txByte b → (s.core i).owner = false → (s.core i).sel = true → (s.core i).srw = true →
      d.remote ≠ .stop ∨ (s.core i).addrmatch = true ∨ ((s.core i).bnd = true ∧ (s.core i).rxnack = false) →
      runInput (.bus i d) s = .next (s.setBus i
        { s.bus i with
          trace := (s.bus i).trace ++ [.w b d.ack]
          core :=
            { s.core i with bnd := true, rxnack := (s.core i).rxnack || d.ack == .nack, pend := .none } }))

/-- R167, R168, R170, R171, R173: what a remote master can bring to an enabled core, that it brings nothing where the guard of
its rule fails, and that a disabled core takes nothing. Of an address of two bytes the first decides on a 7-bit core, whose own address byte may equal the prefix (R115, R506);
that the second is then no part of this step is the model's reading (log entry 26). Of the model's own `sel10` nothing is said.
That a byte that left BND = 1 holds back the stop of a remote master, also in the stall of R499, is log entry 35. -/
def Obligations.BusStepDeliversRemote : Prop :=
  ∀ (i : BusId) (s : State) (d : BusDraw),
    ((s.core i).moden = false → runInput (.bus i d) s = .next s) ∧
    ((s.core i).moden = true → (s.core i).pend = .none →
      ((s.core i).mstr = false → (s.core i).addrmatch = false → (s.core i).bnd = false →
        (∀ dir, (∃ v, d.remote = .address v ∧ (s.core i).matchAddress v = .some dir) ∨
            (∃ v w, d.remote = .address10 v w ∧ (s.core i).matchAddress10 v w = .some dir) →
          ∃ r, runInput (.bus i d) s = .next (s.setBus i
            { s.bus i with
              trace := (s.bus i).trace ++ [.am dir]
              core :=
                { s.core i with addrmatch := true, srw := dir == .read, busy := true, sel := true, sel10 := r } })) ∧
        ((∃ v, d.remote = .address v ∧ (s.core i).matchAddress v = .none) ∨
            (∃ v w, d.remote = .address10 v w ∧ (s.core i).matchAddress10 v w = .none) →
          ∃ r, runInput (.bus i d) s = .next (s.setBus i { s.bus i with core := { s.core i with sel10 := r } }))) ∧
      (∀ b, d.remote = .write b →
        (s.core i).sel = true → (s.core i).srw = false → (s.core i).addrmatch = false → (s.core i).bnd = false →
        runInput (.bus i d) s = .next (s.setBus i
          { s.bus i with
            trace := (s.bus i).trace ++ [.r b (s.core i).acksel]
            core := { s.core i with data := b, bnd := true } })) ∧
      (d.remote = .stop → (s.core i).sel = true → (s.core i).addrmatch = false →
        ((s.core i).bnd = false ∨ (s.core i).rxnack = true) →
        ∃ r, runInput (.bus i d) s = .next (s.setBus i
          { s.bus i with
            trace := (s.bus i).trace ++ [.pRemote]
            core := { s.core i with stopf := true, busy := false, sel := false, sel10 := r } })) ∧
      (d.remote = .foreignStop → (s.core i).mstr = true → (s.core i).owner = false → (s.core i).busy = true →
        runInput (.bus i d) s = .next (s.setBus i
          { s.bus i with core := { s.core i with busy := false } })) ∧
      (d.remote = .quiet ∨
          (((∃ v, d.remote = .address v) ∨ ∃ v w, d.remote = .address10 v w) ∧
            ((s.core i).mstr = true ∨ (s.core i).addrmatch = true ∨ (s.core i).bnd = true)) ∨
          ((∃ b, d.remote = .write b) ∧
            ((s.core i).sel = false ∨ (s.core i).srw = true ∨ (s.core i).addrmatch = true ∨ (s.core i).bnd = true)) ∨
          (d.remote = .stop ∧
            ((s.core i).sel = false ∨ (s.core i).addrmatch = true ∨
              ((s.core i).bnd = true ∧ (s.core i).rxnack = false))) ∨
          (d.remote = .foreignStop ∧
            ((s.core i).mstr = false ∨ (s.core i).owner = true ∨ (s.core i).busy = false)) →
        runInput (.bus i d) s = .next s)) ∧
    (∀ b, (s.core i).moden = true → (s.core i).pend = .txByte b → (s.core i).owner = false →
      d.remote = .stop → (s.core i).sel = true → (s.core i).addrmatch = false →
      ((s.core i).bnd = false ∨ (s.core i).rxnack = true) →
      ∃ r, runInput (.bus i d) s = .next (s.setBus i
        { s.bus i with
          trace := (s.bus i).trace ++ [.pRemote]
          core := { s.core i with stopf := true, busy := false, sel := false, pend := .none, sel10 := r } }))

/-- R110 to R112, R115, R315 (e): the address bytes a master sends are matched by the slave whose own address they
encode, in the direction they encode, and by no other slave. R115's "while selected", on which the read prefix depends, is
the model's field `sel10` (log entry 8). R115: a 10-bit core that has matched its two address bytes remembers it: its read
prefix matches then, and still after a byte or a further read, until a stop or an address phase that is not its own. A core in
7-bit mode matches by the first address byte alone, whatever follows, and keeps no selection past an address; that a 10-bit
core goes by its own read prefix likewise, whatever follows, is the model's reading (log entry 26). -/
def Obligations.AddressBytesMatchOwnAddress : Prop :=
  (∀ (c : BusCore) (a : BitVec 10) (d : WireDir),
    (c.addr10 = false → ∀ d',
      (c.matchAddress (ab7 a d) = .some d' ↔ d' = d ∧ a.extractLsb' 0 7 = c.ownaddr.extractLsb' 0 7) ∧
      ∀ v, c.matchAddress10 (ab7 a d) v = .some d' ↔ d' = d ∧ a.extractLsb' 0 7 = c.ownaddr.extractLsb' 0 7) ∧
    (c.addr10 = true →
      (∀ d', c.matchAddress10 (pfx a .write) (lowByte a) = .some d' ↔ d' = .write ∧ a = c.ownaddr) ∧
      (∀ d', c.matchAddress (pfx a .read) = .some d' ↔
        d' = .read ∧ c.sel10 = true ∧ a.extractLsb' 8 2 = c.ownaddr.extractLsb' 8 2) ∧
      ∀ v, c.matchAddress10 (pfx a .read) v = c.matchAddress (pfx a .read))) ∧
  (∀ (i : BusId) (s : State) (d : BusDraw), (s.core i).moden = true → (s.core i).addr10 = true →
    (s.core i).mstr = false → (s.core i).pend = .none → (s.core i).addrmatch = false →
    ∃ (t : State) (before after : Option WireDir), runInput (.bus i d) s = .next t ∧
      before = (s.core i).matchAddress (pfx (s.core i).ownaddr .read) ∧
      after = (t.core i).matchAddress (pfx (t.core i).ownaddr .read) ∧
      (t.core i).ownaddr = (s.core i).ownaddr ∧ (t.core i).addr10 = true ∧
      ((s.core i).bnd = false →
        (d.remote = .address10 (pfx (s.core i).ownaddr .write) (lowByte (s.core i).ownaddr) → after = .some .read) ∧
        (∀ v w, d.remote = .address10 v w →
          v ≠ pfx (s.core i).ownaddr .write ∨ w ≠ lowByte (s.core i).ownaddr →
          after = (if v = pfx (s.core i).ownaddr .read then before else .none)) ∧
        (∀ v, d.remote = .address v → v ≠ pfx (s.core i).ownaddr .read → after = .none) ∧
        (d.remote = .address (pfx (s.core i).ownaddr .read) → after = before)) ∧
      (d.remote = .stop → (s.core i).sel = true → (s.core i).bnd = false ∨ (s.core i).rxnack = true → after = .none) ∧
      (d.remote = .quiet ∨ (∃ b, d.remote = .write b) → after = before)) ∧
  ∀ (i : BusId) (s t : State) (d : BusDraw), (s.core i).moden = true → (s.core i).addr10 = false →
    (s.core i).mstr = false → (s.core i).pend = .none → (s.core i).addrmatch = false → (s.core i).bnd = false →
    (∃ v, d.remote = .address v) ∨ (∃ v w, d.remote = .address10 v w) →
    runInput (.bus i d) s = .next t → (t.core i).sel10 = false

/-! ## Sequencer -/

/-- R192, R193, R190: SEQ_START and SEQ_RSTART, for every draw. That a step drawn as taken on a busy bus, which R190 taken
literally would leave pending, cancels the start and answers TO_START is the model's choice (log entries 6, 7). A request
the core cannot take finds nothing to poll for when nothing else is pending; what else is pending may complete in the poll,
and its flags then decide, against the corner cases of R192 and R193: the model's reading (log entry 36). -/
def Obligations.SequencerStarts : Prop :=
  ∀ (i : BusId) (s : State), IdleAt i s →
    ((s.core i).moden = true → (s.core i).mstr = true → (s.core i).owner = false →
      (∀ d, s.drawPoll.1 = .taken d → (s.core i).busy = false →
        exec (.seqStart i) s = .next
          ((s.drawPoll.2.setBus i
            { s.bus i with
              trace := (s.bus i).trace ++ [.s]
              core := { s.core i with busy := true, owner := true, startf := false, pend := .none } }).setRetWord 0)) ∧
      (s.drawPoll.1 = .withheld ∨ (s.core i).busy = true →
        exec (.seqStart i) s = .next
          ((s.drawPoll.2.setBus i
            { s.bus i with core := { s.core i with startf := false, pend := .none } }).setRetWord 1))) ∧
    ((s.core i).pend = .none →
      ((s.core i).moden = false ∨ (s.core i).mstr = false ∨ (s.core i).owner = true) →
        exec (.seqStart i) s = .next
          ((s.setBus i { s.bus i with core := { s.core i with startf := false } }).setRetWord 1)) ∧
    ((s.core i).pend ≠ .none →
      ((s.core i).moden = false ∨ (s.core i).mstr = false ∨ (s.core i).owner = true) →
      (s.drawPoll.1 = .withheld ∨ (s.core i).canComplete = false →
        exec (.seqStart i) s = .next
          ((s.drawPoll.2.setBus i
            { s.bus i with core := { s.core i with startf := false, pend := .none } }).setRetWord 1)) ∧
      (∀ d, s.drawPoll.1 = .taken d → (s.core i).canComplete = true →
        ∃ t, runInput (.bus i d)
            (s.drawPoll.2.setBus i { s.bus i with core := { s.core i with startf := false } }) = .next t ∧
          exec (.seqStart i) s = .next
            (if (t.core i).startf = true ∧ (t.core i).busy = true then
              (t.setBus i { t.bus i with core := { t.core i with startf := false } }).setRetWord 0
            else t.setRetWord 1))) ∧
    ((s.core i).moden = true → (s.core i).owner = true →
      (∀ d, s.drawPoll.1 = .taken d →
        exec (.seqRstart i) s = .next
          ((s.drawPoll.2.setBus i
            { s.bus i with
              trace := (s.bus i).trace ++ [.sr]
              core := { s.core i with startf := false, pend := .none } }).setRetWord 0)) ∧
      (s.drawPoll.1 = .withheld →
        exec (.seqRstart i) s = .next
          ((s.drawPoll.2.setBus i
            { s.bus i with core := { s.core i with startf := false, pend := .none } }).setRetWord 1))) ∧
    ((s.core i).pend = .none → ((s.core i).moden = false ∨ (s.core i).owner = false) →
        exec (.seqRstart i) s = .next
          ((s.setBus i { s.bus i with core := { s.core i with startf := false } }).setRetWord 1)) ∧
    ((s.core i).pend ≠ .none → ((s.core i).moden = false ∨ (s.core i).owner = false) →
      (s.drawPoll.1 = .withheld ∨ (s.core i).canComplete = false →
        exec (.seqRstart i) s = .next
          ((s.drawPoll.2.setBus i
            { s.bus i with core := { s.core i with startf := false, pend := .none } }).setRetWord 1)) ∧
      (∀ d, s.drawPoll.1 = .taken d → (s.core i).canComplete = true →
        ∃ t, runInput (.bus i d)
            (s.drawPoll.2.setBus i { s.bus i with core := { s.core i with startf := false } }) = .next t ∧
          exec (.seqRstart i) s = .next
            (if (t.core i).startf = true then
              (t.setBus i { t.bus i with core := { t.core i with startf := false } }).setRetWord 0
            else t.setRetWord 1)))

/-- R194, R196, R190: SEQ_WAIT_READY and SEQ_STOP, for every draw, on a core that keeps the ownership invariant. That a start
pending on a busy bus is cancelled whatever is drawn is the model's choice (log entry 6). -/
def Obligations.SequencerWaitAndStop : Prop :=
  ∀ (i : BusId) (s : State), IdleAt i s → (s.core i).ok = true →
    ((s.core i).moden = true → (s.core i).pend = .none → exec (.seqWaitReady i) s = .next (s.setRetWord 0)) ∧
    ((s.core i).moden = false → exec (.seqWaitReady i) s = .next (s.setRetWord 2)) ∧
    ((s.core i).pend ≠ .none →
      (s.drawPoll.1 = .withheld ∨ ((s.core i).pend = .start ∧ (s.core i).busy = true) →
        exec (.seqWaitReady i) s = .next ((s.drawPoll.2.setBus i (s.bus i).givenUp).setRetWord 2)) ∧
      (∀ d, s.drawPoll.1 = .taken d → ((s.core i).pend = .start → (s.core i).busy = false) →
        ∃ t, runInput (.bus i d) s.drawPoll.2 = .next t ∧
          exec (.seqWaitReady i) s = .next (t.setRetWord 0))) ∧
    ((s.core i).owner = true →
      (∀ d, s.drawPoll.1 = .taken d →
        exec (.seqStop i) s = .next ((s.drawPoll.2.setBus i (s.bus i).stopped).setRetWord 0)) ∧
      (s.drawPoll.1 = .withheld →
        exec (.seqStop i) s = .next ((s.drawPoll.2.setBus i (s.bus i).givenUp).setRetWord 8))) ∧
    ((s.core i).owner = false →
      ((s.core i).busy = false → exec (.seqStop i) s = .next (s.setRetWord 0)) ∧
      ((s.core i).busy = true → (s.core i).pend = .none → exec (.seqStop i) s = .next (s.setRetWord 8)) ∧
      ((s.core i).busy = true → (s.core i).pend ≠ .none →
        (s.drawPoll.1 = .withheld ∨ (s.core i).pend = .start →
          exec (.seqStop i) s = .next ((s.drawPoll.2.setBus i (s.bus i).givenUp).setRetWord 8)) ∧
        (∀ d, s.drawPoll.1 = .taken d → (s.core i).pend ≠ .start →
          ∃ t, runInput (.bus i d) s.drawPoll.2 = .next t ∧
            exec (.seqStop i) s = .next (t.setRetWord (if (t.core i).busy then 8 else 0)))))

/-- R195, R162, R165, R166, R169: SEQ_TXBYTE on a core with nothing pending, for every draw: the answer to the byte decides
the status word, and no flag it caused is left. That a selected slave transmitter's byte goes on the wire, of which the corner
case of R195 speaks as of no ownership, is the model's reading (log entry 33), and so is that an ARBLOST left from before the
call is what it answers, at once, a byte the core has taken still pending, and that an RXNACK left from before makes the
answer NACK for a byte that was acknowledged (log entry 37). -/
def Obligations.SequencerByte : Prop :=
  ∀ (i : BusId) (b : Byte) (s : State), IdleAt i s → (s.core i).pend = .none →
    ((s.core i).moden = false → exec (.seqTxByte i b) s = .next (s.setRetWord 2)) ∧
    ((s.core i).moden = true → (s.core i).arblost = true →
      exec (.seqTxByte i b) s = .next
        ((s.setBus i
          { s.bus i with
            core :=
              { s.core i with
                data := b, bnd := false, arblost := false
                pend :=
                  if (s.core i).dir = .tx ∧
                      ((s.core i).owner = true ∨ ((s.core i).sel = true ∧ (s.core i).srw = true)) then .txByte b
                  else .none } }).setRetWord 0x20)) ∧
    ((s.core i).moden = true → (s.core i).arblost = false →
      ((s.core i).dir = .rx ∨ ((s.core i).owner = false ∧ ((s.core i).sel = false ∨ (s.core i).srw = false)) →
        exec (.seqTxByte i b) s = .next
          ((s.setBus i { s.bus i with core := { s.core i with data := b, bnd := false } }).setRetWord 4)) ∧
      ((s.core i).dir = .tx → (s.core i).owner = true →
        (s.drawPoll.1 = .withheld →
          exec (.seqTxByte i b) s = .next
            ((s.drawPoll.2.setBus i { s.bus i with core := { s.core i with data := b, bnd := false } }).setRetWord 4)) ∧
        (∀ d, s.drawPoll.1 = .taken d → d.tx = .acked →
          exec (.seqTxByte i b) s = .next
            ((s.drawPoll.2.setBus i
              { s.bus i with
                trace := (s.bus i).trace ++ [.w b .ack]
                core := { s.core i with data := b, bnd := false, rxnack := false } }).setRetWord
              (if (s.core i).rxnack then 0x10 else 0))) ∧
        (∀ d, s.drawPoll.1 = .taken d → d.tx = .nacked →
          exec (.seqTxByte i b) s = .next
            ((s.drawPoll.2.setBus i
              { s.bus i with
                trace := (s.bus i).trace ++ [.w b .nack, .p]
                core :=
                  { s.core i with
                    data := b, bnd := false, rxnack := false, busy := false, owner := false } }).setRetWord 0x10)) ∧
        (∀ d, s.drawPoll.1 = .taken d → d.tx = .lost →
          exec (.seqTxByte i b) s = .next
            ((s.drawPoll.2.setBus i
              { s.bus i with
                trace := (s.bus i).trace ++ [.x]
                core := { s.core i with data := b, bnd := false, owner := false } }).setRetWord 0x20))) ∧
      ((s.core i).dir = .tx → (s.core i).owner = false → (s.core i).sel = true → (s.core i).srw = true →
        (s.drawPoll.1 = .withheld →
          exec (.seqTxByte i b) s = .next
            ((s.drawPoll.2.setBus i { s.bus i with core := { s.core i with data := b, bnd := false } }).setRetWord 4)) ∧
        (∀ d, s.drawPoll.1 = .taken d → d.remote ≠ .stop ∨ (s.core i).addrmatch = true →
          exec (.seqTxByte i b) s = .next
            ((s.drawPoll.2.setBus i
              { s.bus i with
                trace := (s.bus i).trace ++ [.w b d.ack]
                core := { s.core i with data := b, bnd := false, rxnack := false } }).setRetWord
              (if (s.core i).rxnack = true ∨ d.ack = .nack then 0x10 else 0))) ∧
        (∀ d, s.drawPoll.1 = .taken d → d.remote = .stop → (s.core i).addrmatch = false →
          ∃ r, exec (.seqTxByte i b) s = .next
            ((s.drawPoll.2.setBus i
              { s.bus i with
                trace := (s.bus i).trace ++ [.pRemote]
                core :=
                  { s.core i with
                    data := b, bnd := false, stopf := true, busy := false, sel := false, sel10 := r } }).setRetWord
              4))))

/-- R200, R113: SEQ_ADDRESS on a cooperative bus puts exactly the sequence of R113 on the wire, 7-bit and 10-bit, write
and read, with a repeated start in front when the bus is already held, and answers 0. R118, R192, R193, R195: when the
environment cooperates in the first `n` polls only, the step whose poll is the next one fails, its status bit is the answer and
no later step is run: a start withheld TO_START, a byte withheld TO_BYTE, refused NACK with the bus released, lost ARBLOST. -/
def Obligations.SequencerAddressWire : Prop :=
  (∀ (i : BusId) (d : WireDir) (s : State), IdleMaster i s → CoreReady (s.core i) →
    (s.core i).arblost = false → (s.core i).rxnack = false →
    Cooperative (addressWire (s.core i).owner (s.m i).slaveAddr (s.m i).addr10 d).length s →
      exec (.seqAddress i d) s = .next
        (((s.pollsDrawn (addressWire (s.core i).owner (s.m i).slaveAddr (s.m i).addr10 d).length).setBus i
          { s.bus i with
            trace := (s.bus i).trace ++ addressWire (s.core i).owner (s.m i).slaveAddr (s.m i).addr10 d
            core :=
              { s.core i with
                dir := .tx, busy := true, owner := true, startf := false, bnd := false, pend := .none
                data := lastAddressByte (s.m i).slaveAddr (s.m i).addr10 d } }).setRetWord 0)) ∧
  ∀ (i : BusId) (d : WireDir) (s : State) (w : List Sym) (n : Nat) (p : PollDraw), IdleMaster i s → CoreReady (s.core i) →
    (s.core i).arblost = false → (s.core i).rxnack = false →
    w = addressWire (s.core i).owner (s.m i).slaveAddr (s.m i).addr10 d → Cooperative n s → s.env.polls[n]? = .some p →
    ∃ t, exec (.seqAddress i d) s = .next t ∧
      (∀ y, w[n]? = .some y → y = .s ∨ y = .sr → p = .withheld →
        t.port.ret = 1 ∧ (t.bus i).trace = (s.bus i).trace ++ w.take n ∧ t.env.polls = s.env.polls.drop (n + 1) ∧
        t.env.drawn = s.env.drawn ∧ (t.core i).pend = .none ∧
        (t.core i).owner = ((s.core i).owner || n != 0) ∧ (t.core i).busy = ((s.core i).busy || n != 0)) ∧
      (∀ b, w[n]? = .some (.w b .ack) →
        (p = .withheld →
          t.port.ret = 4 ∧ (t.bus i).trace = (s.bus i).trace ++ w.take n ∧ t.env.polls = s.env.polls.drop (n + 1) ∧
          t.env.drawn = s.env.drawn ∧ (t.core i).pend = .none ∧ (t.core i).owner = true ∧ (t.core i).busy = true) ∧
        (∀ e, p = .taken e → e.tx = .nacked →
          t.port.ret = 0x10 ∧ (t.bus i).trace = (s.bus i).trace ++ w.take n ++ [.w b .nack, .p] ∧
          t.env.polls = s.env.polls.drop (n + 1) ∧ t.env.drawn = s.env.drawn ∧ (t.core i).pend = .none ∧
          (t.core i).bnd = false ∧ (t.core i).rxnack = false ∧ (t.core i).owner = false ∧ (t.core i).busy = false) ∧
        (∀ e, p = .taken e → e.tx = .lost →
          t.port.ret = 0x20 ∧ (t.bus i).trace = (s.bus i).trace ++ w.take n ++ [.x] ∧
          t.env.polls = s.env.polls.drop (n + 1) ∧ t.env.drawn = s.env.drawn ∧ (t.core i).pend = .none ∧
          (t.core i).arblost = false ∧ (t.core i).owner = false ∧ (t.core i).busy = true))

/-- R191, R202: a sequencer routine issued from the port always answers, and whatever is drawn it touches no context, no
phase, no buffer, no semaphore, no callback, no DMA channel and no other instance; of the core it leaves the enables, the
acknowledge, the own address and the dividers alone. -/
def Obligations.SequencerTouchesOnlyTheCore : Prop :=
  ∀ (x : Instr) (s : State), x.isSequencer = true →
    ∃ t, exec x s = .next t ∧
      t = { s with
            buses := t.buses
            port := { s.port with ret := t.port.ret }
            env := { s.env with polls := t.env.polls, drawn := t.env.drawn } } ∧
      (∀ j, j ≠ x.inst → t.bus j = s.bus j) ∧
      t.bus x.inst = { s.bus x.inst with core := t.core x.inst, trace := (t.bus x.inst).trace } ∧
      (∃ l, (t.bus x.inst).trace = (s.bus x.inst).trace ++ l) ∧
      (t.core x.inst).moden = (s.core x.inst).moden ∧ (t.core x.inst).mstr = (s.core x.inst).mstr ∧
      (t.core x.inst).acksel = (s.core x.inst).acksel ∧ (t.core x.inst).ownaddr = (s.core x.inst).ownaddr ∧
      (t.core x.inst).addr10 = (s.core x.inst).addr10 ∧ (t.core x.inst).wakeen = (s.core x.inst).wakeen ∧
      (t.core x.inst).sample = (s.core x.inst).sample ∧ (t.core x.inst).step = (s.core x.inst).step ∧
      (t.core x.inst).intenWord = (s.core x.inst).intenWord ∧ (t.core x.inst).dmatxen = (s.core x.inst).dmatxen ∧
      (t.core x.inst).dmarxen = (s.core x.inst).dmarxen

/-! ## Master -/

/-- R225, R227, R355, R382: M_SEND and M_SEND_BLK on an idle master, a free or own bus and a cooperative device: the
address phase is on the wire, the first data byte is handed to the core, and in DMA transport the channel holds the rest.
Of the model's own `txLent` and `rxLent` nothing is said. -/
def Obligations.MasterSendStarts : Prop :=
  ∀ (i : BusId) (stop : Bool) (s : State), IdleMaster i s → GoodBuffer s → CoreReady (s.core i) →
    Cooperative (addressWire (s.core i).owner (s.m i).slaveAddr (s.m i).addr10 .write).length s →
    ∃ (bulk : Bool) (core : BusCore) (m : MCtx) (r : State) (tl rl : Option Lend),
      (bulk = true ↔ (s.m i).transport = .dma ∧ 2 ≤ s.port.arg1) ∧
      core =
        { s.core i with
          dir := .tx, busy := true, owner := true, startf := false, bnd := false, rxnack := false, arblost := false
          nackie := true, arbie := true, bndie := !bulk, dmatxen := bulk || (s.core i).dmatxen
          data := s.load s.port.arg0, pend := .txByte (s.load s.port.arg0) } ∧
      m =
        { s.m i with
          txBuf := .some (s.port.arg0 + 1), txRemaining := s.port.arg1 - 1, rxBuf := .none, rxRemaining := 0
          rxCursor := 0, stopOnCompletion := stop, lastResult := .busy, idle := false, txLent := tl, rxLent := rl } ∧
      r =
        (s.pollsDrawn (addressWire (s.core i).owner (s.m i).slaveAddr (s.m i).addr10 .write).length).channelStarted bulk
          (s.m i).dmaChannel (.mem (s.port.arg0 + 1)) (.data i) (s.port.arg1 - 1) .mem2dev i ∧
      exec (.mSend i stop) s = .next
        ((r.setBus i
          { s.bus i with
            core := core, m := m, phase := .data
            trace := (s.bus i).trace ++ addressWire (s.core i).owner (s.m i).slaveAddr (s.m i).addr10 .write }).setRet
          .success) ∧
      exec (.mSendBlk i stop) s = .next
        (r.setBus i
          { s.bus i with
            core := core, m := { m with blocking := true }, phase := .data, sem := 0, wait := .some s.port.arg2
            trace := (s.bus i).trace ++ addressWire (s.core i).owner (s.m i).slaveAddr (s.m i).addr10 .write })

/-- R230, R227, R355, R384: M_RECV and M_RECV_BLK likewise: the acknowledge of the first byte is armed, its reception is
requested, and in DMA transport the channel is to move all but the last two. Of the model's own `txLent` and `rxLent`
nothing is said. -/
def Obligations.MasterReceiveStarts : Prop :=
  ∀ (i : BusId) (stop : Bool) (s : State), IdleMaster i s → GoodBuffer s → CoreReady (s.core i) →
    Cooperative (addressWire (s.core i).owner (s.m i).slaveAddr (s.m i).addr10 .read).length s →
    ∃ (bulk : Bool) (core : BusCore) (m : MCtx) (r : State) (tl rl : Option Lend),
      (bulk = true ↔ (s.m i).transport = .dma ∧ 3 ≤ s.port.arg1) ∧
      core =
        { s.core i with
          dir := .rx, busy := true, owner := true, startf := false, bnd := false, rxnack := false, arblost := false
          nackie := true, arbie := true, bndie := !bulk, dmarxen := bulk || (s.core i).dmarxen
          acksel := if s.port.arg1 = 1 then .nack else .ack
          data := lastAddressByte (s.m i).slaveAddr (s.m i).addr10 .read, pend := .rxByte } ∧
      m =
        { s.m i with
          txBuf := .none, txRemaining := 0, rxBuf := .some s.port.arg0, rxRemaining := s.port.arg1
          rxCursor := 0, stopOnCompletion := stop, lastResult := .busy, idle := false, txLent := tl, rxLent := rl } ∧
      r =
        (s.pollsDrawn (addressWire (s.core i).owner (s.m i).slaveAddr (s.m i).addr10 .read).length).channelStarted bulk
          (s.m i).dmaChannel (.data i) (.mem s.port.arg0) (s.port.arg1 - 2) .dev2mem i ∧
      exec (.mRecv i stop) s = .next
        ((r.setBus i
          { s.bus i with
            core := core, m := m, phase := .data
            trace := (s.bus i).trace ++ addressWire (s.core i).owner (s.m i).slaveAddr (s.m i).addr10 .read }).setRet
          .success) ∧
      exec (.mRecvBlk i stop) s = .next
        (r.setBus i
          { s.bus i with
            core := core, m := { m with blocking := true }, phase := .data, sem := 0, wait := .some s.port.arg2
            trace := (s.bus i).trace ++ addressWire (s.core i).owner (s.m i).slaveAddr (s.m i).addr10 .read })

/-- R221, R227, R246, R260 (d), (e), R383: whatever is drawn, an admitted start ends in one of two ways: the transfer is
in its data phase, or it has ended with a result code, which RET and `lastResult` hold, with the context idle, the buffers
unset and the sources off. No byte but an address byte is ever transmitted by it, no memory is written, and the bus is
left alone by every other instance. R201, R227, R260 (d): which of the two, and with which result, is what SEQ_ADDRESS answers
on the core as R351 leaves it: 0, or a status whose bit ARBLOST gives ARBITRATION_LOST, else a timeout bit ERROR, else
RECEIVED_NACK; the wire then carries that address phase alone, and after ERROR at most a stop. -/
def Obligations.MasterStartRunsOrEnds : Prop :=
  ∀ (i : BusId) (d : Dir) (blk stop : Bool) (x : Instr) (s : State),
    IdleMaster i s → GoodBuffer s → (s.core i).ok = true → (s.core i).mstr = true →
    x = (match d, blk with
      | .tx, false => .mSend i stop
      | .rx, false => .mRecv i stop
      | .tx, true => .mSendBlk i stop
      | .rx, true => .mRecvBlk i stop) →
    ∃ (t u : State) (l k : List Sym), exec x s = .next t ∧
      exec (.seqAddress i (match d with | .tx => .write | .rx => .read))
        (s.setBus i
          { s.bus i with
            core :=
              { s.core i with
                startf := false, bnd := false, rxnack := false, arblost := false, nackie := true, arbie := true
                bndie := true } }) = .next u ∧
      (u.port.ret = 0 ↔ (t.m i).idle = false) ∧ (t.bus i).trace = (u.bus i).trace ++ k ∧
      (k = [] ∨ (k = [.p] ∧ u.port.ret ≠ 0 ∧ (t.m i).lastResult = .error)) ∧
      (u.port.ret ≠ 0 →
        (t.m i).lastResult =
          if u.port.ret &&& 0x20 ≠ 0 then .arbitrationLost else if u.port.ret &&& 0x0F ≠ 0 then .error
          else .receivedNack) ∧
      (t.bus i).role = .master ∧ t.mem = s.mem ∧ t.params = s.params ∧ (∀ j, j ≠ i → t.bus j = s.bus j) ∧
      (t.bus i).trace = (s.bus i).trace ++ l ∧
      (∀ b a, Sym.w b a ∈ l → ∃ a', Sym.w b a' ∈
        addressWire (s.core i).owner (s.m i).slaveAddr (s.m i).addr10 (match d with | .tx => .write | .rx => .read)) ∧
      (((t.m i).idle = false ∧ (t.bus i).phase = .data ∧ (t.m i).lastResult = .busy ∧
          (t.m i).stopOnCompletion = stop ∧ (t.m i).txBuf.isSome = (d == .tx) ∧ (t.m i).rxBuf.isSome = (d == .rx) ∧
          (t.bus i).cbtrace = (s.bus i).cbtrace ∧
          (blk = false → t.port.ret = 0 ∧ (t.bus i).wait = .none) ∧
          (blk = true → (t.m i).blocking = true ∧ (t.bus i).sem = 0 ∧ (t.bus i).wait = .some s.port.arg2)) ∨
        ((t.m i).idle = true ∧ (t.bus i).phase = .idle ∧ (t.bus i).wait = .none ∧ (t.m i).txBuf = .none ∧
          (t.m i).rxBuf = .none ∧ t.port.ret = (t.m i).lastResult.code ∧
          ((t.m i).lastResult = .error ∨ (t.m i).lastResult = .receivedNack ∨
            (t.m i).lastResult = .arbitrationLost) ∧
          ((t.core i).bndie = false ∧ (t.core i).nackie = false ∧ (t.core i).arbie = false) ∧
          (blk = true → (t.m i).blocking = false) ∧
          (t.bus i).cbtrace = (s.bus i).cbtrace ++
            (match (s.m i).cb with
              | .none => []
              | .some user => [⟨i, .error, user⟩])))

/-- R234: a completed byte of a send. With bytes left the next one is read from memory and handed to the core; with none
the flag is cleared and the transfer ends (`masterEnd`, of which the next statement tells the effect). -/
def Obligations.MasterSendByteEvent : Prop :=
  ∀ (i : BusId) (a : Word) (s : State), MasterByteEvent i s → (s.m i).txBuf = .some a →
    ((s.m i).txRemaining ≠ 0 →
      runInput (.dispatch i) s = .next (s.setBus i
        { s.bus i with
          core :=
            { s.core i with
              data := s.load a, bnd := false
              pend :=
                if (s.core i).moden = true ∧ (s.core i).dir = .tx ∧
                  ((s.core i).owner = true ∨ ((s.core i).sel = true ∧ (s.core i).srw = true))
                then .txByte (s.load a) else (s.core i).pend }
          m := { s.m i with txBuf := .some (a + 1), txRemaining := (s.m i).txRemaining - 1 } })) ∧
    ((s.m i).txRemaining = 0 →
      runInput (.dispatch i) s = .next
        (masterEnd i (s.setBus i { s.bus i with core := { s.core i with bnd := false } })))

/-- R236, R237: a completed byte of a receive, by the index comparison: the last byte is read without starting another
one and ends the transfer; the second-to-last arms NACK and every other one ACK before it is read and the next one
started. The byte goes to `rxBuf + rxCursor`, and every other byte of memory is as before. -/
def Obligations.MasterReceiveByteEvent : Prop :=
  ∀ (i : BusId) (a : Word) (s : State), MasterByteEvent i s → (s.m i).txBuf = .none → (s.m i).rxBuf = .some a →
    ∃ m : MCtx,
      m = { s.m i with rxCursor := (s.m i).rxCursor + 1, rxRemaining := (s.m i).rxRemaining - 1 } ∧
      ((s.m i).rxRemaining = 1 →
        runInput (.dispatch i) s = .next
          (masterEnd i ((s.store (a + (s.m i).rxCursor) (s.core i).data).setBus i
            { s.bus i with core := { s.core i with dir := .tx, bnd := false }, m := m }))) ∧
      ((s.m i).rxRemaining ≠ 1 →
        runInput (.dispatch i) s = .next ((s.store (a + (s.m i).rxCursor) (s.core i).data).setBus i
          { s.bus i with
            core :=
              { s.core i with
                acksel := if (s.m i).rxRemaining = 2 then .nack else .ack
                bnd := false
                pend :=
                  if (s.core i).moden = true ∧ (s.core i).mstr = true ∧ (s.core i).owner = true ∧
                    (s.core i).dir = .rx
                  then .rxByte else (s.core i).pend }
            m := m })) ∧
      (∀ b : Word, b ≠ a + (s.m i).rxCursor →
        (s.store (a + (s.m i).rxCursor) (s.core i).data).load b = s.load b)

/-- R242, R35, R353: the normal end of a master transfer, with and without the stop, for every draw: BUSY becomes SUCCESS,
or ERROR when the stop is withheld; the callback comes last. -/
def Obligations.MasterEndResult : Prop :=
  ∀ (i : BusId) (s : State), (s.bus i).role = .master → (s.core i).ok = true →
    ∃ ok failed : Result,
      ok = (if (s.m i).lastResult = .busy then .success else (s.m i).lastResult) ∧
      failed = (if (s.m i).lastResult = .busy then .error else (s.m i).lastResult) ∧
      ((s.m i).stopOnCompletion = false ∨ ((s.core i).owner = false ∧ (s.core i).busy = false) →
        masterEnd i s =
          { s.setBus i (((s.bus i).masterEnded ok).called i (s.m i).cb
              (if ok = .success then .endOfTransfer else .error)) with
            dmatrace := s.dmatrace ++ [.idle i] }) ∧
      ((s.m i).stopOnCompletion = true → (s.core i).owner = true →
        (∀ d, s.drawPoll.1 = .taken d →
          masterEnd i s =
            { s.drawPoll.2.setBus i (((s.bus i).stopped.masterEnded ok).called i (s.m i).cb
                (if ok = .success then .endOfTransfer else .error)) with
              dmatrace := s.dmatrace ++ [.idle i] }) ∧
        (s.drawPoll.1 = .withheld →
          masterEnd i s =
            { s.drawPoll.2.setBus i (((s.bus i).givenUp.masterEnded failed).called i (s.m i).cb
                (if failed = .success then .endOfTransfer else .error)) with
              dmatrace := s.dmatrace ++ [.idle i] })) ∧
      ((s.m i).stopOnCompletion = true → (s.core i).owner = false → (s.core i).busy = true → (s.core i).pend = .none →
        masterEnd i s =
          { s.setBus i (((s.bus i).masterEnded failed).called i (s.m i).cb
              (if failed = .success then .endOfTransfer else .error)) with
            dmatrace := s.dmatrace ++ [.idle i] })

/-- R239, R240, R246, R361: a refused byte, lost arbitration and a DMA error end a master transfer through the error exit:
sources off, channel stopped before the context becomes idle, a stop only after a DMA error while the bus is held,
result and ERROR callback. That `txRemaining` is 0 after a refused byte is the model's reading (log entry 34). R233, R449: an event of an idle master clears the flags and does nothing else; a flag that is no
business of the role is cleared, where it is enabled, and the rest is served as without it (that it goes first is the model's
reading, log entry 28). -/
def Obligations.MasterErrorAndLateEvents : Prop :=
  (∀ (i : BusId) (s : State), noDmaEvent i s →
    ((s.bus i).role = .master → (s.m i).idle = true → (s.core i).irq = true →
      runInput (.dispatch i) s = .next (s.setBus i
        { s.bus i with
          core :=
            { s.core i with
              bnd := false, rxnack := false, arblost := false
              addrmatch := (s.core i).addrmatch && !(s.core i).addrie
              stopf := (s.core i).stopf && !(s.core i).stopie } })) ∧
    ((s.bus i).role = .master → (s.m i).idle = false → ((s.core i).arblost = true → (s.core i).arbie = true) →
      ((s.core i).rxnack = true → (s.core i).nackie = true) →
      runInput (.dispatch i) s = runInput (.dispatch i)
        (s.withEvents i ((s.core i).stopf && !(s.core i).stopie) ((s.core i).addrmatch && !(s.core i).addrie))) ∧
    ((s.bus i).role = .slave → ((s.core i).rxnack = true → (s.core i).nackie = true) →
      runInput (.dispatch i) s = runInput (.dispatch i) (s.setBus i
        { s.bus i with core := { s.core i with arblost := (s.core i).arblost && !(s.core i).arbie } }))) ∧
  ∀ (i : BusId) (s : State), (s.bus i).role = .master → (s.m i).idle = false → (s.core i).ok = true →
    (s.core i).addrmatch = false → (s.core i).stopf = false →
    (noDmaEvent i s → (s.core i).arblost = true → (s.core i).arbie = true →
      runInput (.dispatch i) s = .next
        { (s.channelStopped (s.m i).toXfer).setBus i
            (({ s.bus i with core := { s.core i with arblost := false } }.masterEnded .arbitrationLost).called i
              (s.m i).cb .error) with
          dmatrace := (s.channelStopped (s.m i).toXfer).dmatrace ++ [.idle i] }) ∧
    (noDmaEvent i s → (s.core i).arblost = false → (s.core i).rxnack = true → (s.core i).nackie = true →
      runInput (.dispatch i) s = .next
        { (s.channelStopped (s.m i).toXfer).setBus i
            (({ s.bus i with core := { s.core i with rxnack := false, bnd := false } }.masterEnded
              .receivedNack).called i (s.m i).cb .error) with
          dmatrace := (s.channelStopped (s.m i).toXfer).dmatrace ++ [.idle i] }) ∧
    ((s.m i).transport = .dma → (s.chan (s.m i).dmaChannel).owner = .some i →
      (s.chan (s.m i).dmaChannel).err = true →
      ((s.core i).owner = false →
        runInput (.dispatch i) s = .next
          { (s.channelStopped (s.m i).toXfer).setBus i (((s.bus i).masterEnded .error).called i (s.m i).cb .error) with
            dmatrace := s.dmatrace ++ [.stop (s.m i).dmaChannel, .idle i] }) ∧
      ((s.core i).owner = true →
        (∀ d, s.drawPoll.1 = .taken d →
          runInput (.dispatch i) s = .next
            { (s.drawPoll.2.channelStopped (s.m i).toXfer).setBus i
                (((s.bus i).stopped.masterEnded .error).called i (s.m i).cb .error) with
              dmatrace := s.dmatrace ++ [.stop (s.m i).dmaChannel, .idle i] }) ∧
        (s.drawPoll.1 = .withheld →
          runInput (.dispatch i) s = .next
            { (s.drawPoll.2.channelStopped (s.m i).toXfer).setBus i
                (((s.bus i).givenUp.masterEnded .error).called i (s.m i).cb .error) with
              dmatrace := s.dmatrace ++ [.stop (s.m i).dmaChannel, .idle i] })))

/-- R250: M_ABORT on an idle context changes nothing but RET; on a transfer in flight it ends it with ABORTED: sources
off, the DMA channel stopped before the context becomes idle, a stop exactly when the core owns the bus, no callback. On
an instance that is no master it is ERROR. -/
def Obligations.MasterAbortResult : Prop :=
  ∀ (i : BusId) (s : State),
    ((s.bus i).role ≠ .master → exec (.mAbort i) s = .next (s.setRet .error)) ∧
    ((s.bus i).role = .master → (s.core i).ok = true →
    ((s.m i).idle = true → exec (.mAbort i) s = .next (s.setRet .success)) ∧
    ((s.m i).idle = false →
      ((s.core i).owner = false →
        exec (.mAbort i) s = .next
          (State.setRet
            { (s.channelStopped (s.m i).toXfer).setBus i ((s.bus i).masterEnded .aborted) with
              dmatrace := (s.channelStopped (s.m i).toXfer).dmatrace ++ [.idle i] }
            .success)) ∧
      ((s.core i).owner = true →
        (∀ d, s.drawPoll.1 = .taken d →
          exec (.mAbort i) s = .next
            (State.setRet
              { (s.drawPoll.2.channelStopped (s.m i).toXfer).setBus i ((s.bus i).stopped.masterEnded .aborted) with
                dmatrace := (s.channelStopped (s.m i).toXfer).dmatrace ++ [.idle i] }
              .success)) ∧
        (s.drawPoll.1 = .withheld →
          exec (.mAbort i) s = .next
            (State.setRet
              { (s.drawPoll.2.channelStopped (s.m i).toXfer).setBus i ((s.bus i).givenUp.masterEnded .aborted) with
                dmatrace := (s.channelStopped (s.m i).toXfer).dmatrace ++ [.idle i] }
              .success)))))

/-- R252, R312, R362: M_GET_STATUS and S_GET_STATUS answer `lastResult` and the bytes remaining (for a slave, of the
direction in progress, or of the buffer lent last), and change nothing else but for the call made on the DMA collaborator
while the channel's count is not settled and, where a command is suspended, the note that OUT0 holds an answer the resume
will overwrite (R411, log entry 30); in the other role they are ERROR. -/
def Obligations.GetStatusResult : Prop :=
  (∀ (i : BusId) (s : State),
    ((s.bus i).role ≠ .master → exec (.mGetStatus i) s = .next (s.setRet .error)) ∧
    ((s.bus i).role ≠ .slave → exec (.sGetStatus i) s = .next (s.setRet .error))) ∧
  (∀ (i : BusId) (s : State), (s.bus i).role = .master →
      ((s.m i).idle = true →
        exec (.mGetStatus i) s = .next (((s.outNoted i).setOut0 0).setRet (s.m i).lastResult)) ∧
      ((s.m i).idle = false →
        ((s.m i).transport = .int ∨ (s.chan (s.m i).dmaChannel).owner ≠ .some i ∨
            ((s.chan (s.m i).dmaChannel).active = false ∧ (s.chan (s.m i).dmaChannel).done = false) →
          exec (.mGetStatus i) s = .next
            (((s.outNoted i).setOut0 (if (s.m i).txBuf.isSome then (s.m i).txRemaining else (s.m i).rxRemaining)).setRet
              (s.m i).lastResult)) ∧
        ((s.m i).transport = .dma → (s.chan (s.m i).dmaChannel).owner = .some i →
          ((s.chan (s.m i).dmaChannel).active = true ∨ (s.chan (s.m i).dmaChannel).done = true) →
          exec (.mGetStatus i) s = .next
            ((State.setOut0 { s.outNoted i with dmatrace := s.dmatrace ++ [.getRemaining (s.m i).dmaChannel] }
              (if (s.m i).txBuf.isSome then (s.chan (s.m i).dmaChannel).remaining
                else (s.chan (s.m i).dmaChannel).remaining + 2)).setRet (s.m i).lastResult)))) ∧
  (∀ (i : BusId) (s : State), (s.bus i).role = .slave →
      ∃ d, d = (if (s.s i).inProgress then (s.s i).curDir else (s.s i).dmaDir) ∧
        ((s.s i).transport = .int ∨ (s.chan (s.s i).dmaChannel).owner ≠ .some i →
          exec (.sGetStatus i) s = .next
            (((s.outNoted i).setOut0 (if d = .tx then (s.s i).txRemaining else (s.s i).rxRemaining)).setRet (s.s i).lastResult)) ∧
        ((s.s i).transport = .dma → (s.chan (s.s i).dmaChannel).owner = .some i →
          exec (.sGetStatus i) s = .next
            ((State.setOut0 { s.outNoted i with dmatrace := s.dmatrace ++ [.getRemaining (s.s i).dmaChannel] }
              (if d = .tx then (s.chan (s.s i).dmaChannel).remaining
                else (s.chan (s.s i).dmaChannel).remaining + 1)).setRet (s.s i).lastResult)))

/-! ## Slave -/

/-- R281, R282: S_SET_TX_BUF and S_SET_RX_BUF, at any time on an initialised slave whose channel is not moving the old
buffer. Of the model's own fields (log entry 21) nothing is said. -/
def Obligations.SlaveLendsBuffer : Prop :=
  ∀ (i : BusId) (s : State), (s.bus i).role = .slave → GoodBuffer s →
    ((s.s i).transport = .int ∨ (s.chan (s.s i).dmaChannel).active = false ∨
      (s.chan (s.s i).dmaChannel).owner ≠ .some i) →
    (∃ y, exec (.sSetTxBuf i) s = .next
      ((s.setBus i
        { s.bus i with
          s :=
            ({ s.s i with txBuf := .some s.port.arg0, txRemaining := s.port.arg1, dmaDir := .tx } : SCtx).own y }).setRet
        .success)) ∧
    (∃ y, exec (.sSetRxBuf i) s = .next
      ((s.setBus i
        { s.bus i with
          s :=
            ({ s.s i with
              rxBuf := .some s.port.arg0, rxRemaining := s.port.arg1, rxCursor := 0, dmaDir := .rx } : SCtx).own
              y }).setRet .success))

/-- R283 to R285, R385, R387: S_SEND, S_RECV and their blocking forms on an idle slave: the buffer is lent, the context
busy, a one-shot slave armed, and a blocking caller suspended. Two points are the model's reading: that arming leaves BNDIE off
while the channel serves the bytes of a transfer in progress, as R350 and R354 ask, against the SlaveArm of R284, which enables
it (log entry 12); and that the command runs on a slave in progress whose channel moves the old buffer (log entry 32). Of the
model's own fields (log entry 21) nothing is said. -/
def Obligations.SlaveAcceptsTransfer : Prop :=
  ∀ (i : BusId) (s : State), IdleSlave i s → GoodBuffer s →
    ∃ (core : BusCore) (p : Phase) (tx rx y z : SCtx),
      core =
        (if (s.s i).listening then s.core i
        else
          { s.core i with
            stopf := false, rxnack := false, bnd := false, addrie := true, stopie := true, nackie := true
            bndie :=
              !decide ((s.s i).transport = .dma ∧ (s.chan (s.s i).dmaChannel).owner = .some i ∧
                (s.chan (s.s i).dmaChannel).live = true) }) ∧
      p = (if (s.s i).inProgress then (s.bus i).phase else .armed) ∧
      tx =
        ({ s.s i with
          txBuf := .some s.port.arg0, txRemaining := s.port.arg1, dmaDir := .tx, lastResult := .busy
          idle := false } : SCtx).own y ∧
      rx =
        ({ s.s i with
          rxBuf := .some s.port.arg0, rxRemaining := s.port.arg1, rxCursor := 0, dmaDir := .rx, lastResult := .busy
          idle := false } : SCtx).own z ∧
      exec (.sSend i) s = .next
        ((s.setBus i { s.bus i with core := core, phase := p, s := tx }).setRet .success) ∧
      exec (.sRecv i) s = .next
        ((s.setBus i { s.bus i with core := core, phase := p, s := rx }).setRet .success) ∧
      exec (.sSendBlk i) s = .next
        (s.setBus i
          { s.bus i with
            core := core, phase := p, s := { tx with blocking := true }, sem := 0, wait := .some s.port.arg2 }) ∧
      exec (.sRecvBlk i) s = .next
        (s.setBus i
          { s.bus i with
            core := core, phase := p, s := { rx with blocking := true }, sem := 0, wait := .some s.port.arg2 })

/-- R310: S_ABORT with nothing in flight changes nothing but RET; otherwise sources and requests off, the channel stopped
before the context becomes idle, result ABORTED, a suspended caller's semaphore posted, and a listening slave armed again;
no callback and nothing on the wire. On an instance that is no slave it is ERROR. Of the model's own fields (log entry
21) nothing is said. -/
def Obligations.SlaveAbortResult : Prop :=
  ∀ (i : BusId) (s : State),
    ((s.bus i).role ≠ .slave → exec (.sAbort i) s = .next (s.setRet .error)) ∧
    ((s.bus i).role = .slave → (s.s i).idle = true → (s.s i).inProgress = false → exec (.sAbort i) s = .next (s.setRet .success)) ∧
    ((s.bus i).role = .slave → (s.s i).idle = false ∨ (s.s i).inProgress = true →
      ∃ y, exec (.sAbort i) s = .next
        (State.setRet
          { (s.channelStopped (s.s i).toXfer).setBus i
              { s.bus i with
                core :=
                  { s.core i with
                    addrie := (s.s i).listening, stopie := (s.s i).listening, nackie := (s.s i).listening
                    bndie := (s.s i).listening, dmatxen := false, dmarxen := false
                    stopf := (s.core i).stopf && !(s.s i).listening
                    rxnack := (s.core i).rxnack && !(s.s i).listening
                    bnd := (s.core i).bnd && !(s.s i).listening }
                s :=
                  ({ s.s i with
                    txBuf := .none, txRemaining := 0, rxBuf := .none, rxRemaining := 0, lastResult := .aborted
                    inProgress := false, idle := true } : SCtx).own y
                phase := .idle
                sem := if (s.s i).blocking then (s.bus i).sem + 1 else (s.bus i).sem } with
            dmatrace := (s.channelStopped (s.s i).toXfer).dmatrace ++ (if (s.s i).idle then [] else [.idle i]) }
          .success))

/-- R287, R295: a byte received by a slave, dispatched alone: with room it is stored and the answer to the next one armed; with
none it is read and discarded and RX_OVERRUN recorded (here with a callback that lends nothing). A byte event while no
transfer is in progress is spurious: the byte is read and discarded, RXNACK cleared, and nothing else happens. -/
def Obligations.SlaveReceiveByteEvent : Prop :=
  (∀ (i : BusId) (s : State), (s.bus i).role = .slave → (s.s i).inProgress = false →
    ((s.core i).bnd = true ∧ (s.core i).bndie = true) ∨ ((s.core i).rxnack = true ∧ (s.core i).nackie = true) →
    (s.core i).arblost = false → (s.core i).stopf = false → (s.core i).addrmatch = false → noDmaEvent i s →
      runInput (.dispatch i) s = .next (s.setBus i
        { s.bus i with
          core :=
            { s.core i with
              bnd := false, rxnack := false
              pend :=
                if (s.core i).moden = true ∧ (s.core i).mstr = true ∧ (s.core i).owner = true ∧ (s.core i).dir = .rx
                then .rxByte else (s.core i).pend } })) ∧
  ∀ (i : BusId) (s : State), SlaveByteEvent i s → (s.s i).curDir = .rx →
    ∃ core : BusCore,
      core =
        { s.core i with
          bnd := false
          pend :=
            if (s.core i).moden = true ∧ (s.core i).mstr = true ∧ (s.core i).owner = true ∧ (s.core i).dir = .rx
            then .rxByte else (s.core i).pend } ∧
      (∀ a, (s.s i).rxBuf = .some a → (s.s i).rxRemaining ≠ 0 →
        runInput (.dispatch i) s = .next ((s.store (a + (s.s i).rxCursor) (s.core i).data).setBus i
          { s.bus i with
            core := { core with acksel := if (s.s i).rxRemaining = 1 then .nack else .ack }
            s := { s.s i with rxCursor := (s.s i).rxCursor + 1, rxRemaining := (s.s i).rxRemaining - 1 } })) ∧
      ((s.s i).rxRemaining = 0 →
        ((s.s i).cb = .none →
          runInput (.dispatch i) s = .next (s.setBus i
            { s.bus i with core := core, s := { s.s i with lastResult := .rxOverrun }, phase := .data })) ∧
        (∀ user, (s.s i).cb = .some user → s.drawCb.1 = .nothing →
          runInput (.dispatch i) s = .next (s.drawCb.2.setBus i
            { s.bus i with
              core := core, s := { s.s i with lastResult := .rxOverrun }, phase := .data
              cbtrace := (s.bus i).cbtrace ++ [⟨i, .error, user⟩] })))

/-- R291, R292, R305, R440: a byte sent by a slave and acknowledged, dispatched alone: the next buffered byte is handed to
the core; with none the callback is asked for a fresh buffer, whose first byte is then sent; with no callback (or none
lent) TX_UNDERRUN is recorded and SLAVE_FILL is sent. R297: a byte the remote master refuses clears both flags, and nothing
is written or recorded. Of the model's own fields (log entry 21) nothing is said. -/
def Obligations.SlaveTransmitByteEvent : Prop :=
  (∀ (i : BusId) (s : State), (s.bus i).role = .slave → (s.s i).inProgress = true → (s.core i).rxnack = true →
    (s.core i).nackie = true ∨ ((s.core i).bnd = true ∧ (s.core i).bndie = true) →
    (s.core i).arblost = false → (s.core i).stopf = false → (s.core i).addrmatch = false → noDmaEvent i s →
      runInput (.dispatch i) s = .next (s.setBus i
        { s.bus i with core := { s.core i with rxnack := false, bnd := false } })) ∧
  ∀ (i : BusId) (s : State), SlaveByteEvent i s → (s.s i).curDir = .tx →
    ∃ core : Byte → BusCore,
      (∀ b, core b =
        { s.core i with
          data := b, bnd := false
          pend :=
            if (s.core i).moden = true ∧ (s.core i).dir = .tx ∧
              ((s.core i).owner = true ∨ ((s.core i).sel = true ∧ (s.core i).srw = true))
            then .txByte b else (s.core i).pend }) ∧
      (∀ a, (s.s i).txBuf = .some a → (s.s i).txRemaining ≠ 0 →
        runInput (.dispatch i) s = .next (s.setBus i
          { s.bus i with
            core := core (s.load a)
            s := { s.s i with txBuf := .some (a + 1), txRemaining := (s.s i).txRemaining - 1 } })) ∧
      ((s.s i).txRemaining = 0 →
        ((s.s i).cb = .none →
          runInput (.dispatch i) s = .next (s.setBus i
            { s.bus i with
              core := core s.params.slaveFill, s := { s.s i with lastResult := .txUnderrun }, phase := .data })) ∧
        (∀ user, (s.s i).cb = .some user → s.drawCb.1 = .nothing → s.drawCb.2.drawCb.1 = .nothing →
          runInput (.dispatch i) s = .next (s.drawCb.2.drawCb.2.setBus i
            { s.bus i with
              core := core s.params.slaveFill, s := { s.s i with lastResult := .txUnderrun }, phase := .data
              cbtrace := (s.bus i).cbtrace ++ [⟨i, .txEmpty, user⟩, ⟨i, .error, user⟩] })) ∧
        (∀ user l, (s.s i).cb = .some user → s.drawCb.1 = .setTx l → goodLend s l →
          ((s.s i).transport = .int ∨ (s.chan (s.s i).dmaChannel).active = false ∨
            (s.chan (s.s i).dmaChannel).owner ≠ .some i) →
          ∃ y, runInput (.dispatch i) s = .next (s.drawCb.2.setBus i
            { s.bus i with
              core := core (s.load l.buf)
              s :=
                ({ s.s i with txBuf := .some (l.buf + 1), txRemaining := l.len - 1, dmaDir := .tx } : SCtx).own y
              cbtrace := (s.bus i).cbtrace ++ [⟨i, .txEmpty, user⟩] })))

/-- R288, R291, R364, R440: an address match of a slave, dispatched alone, no posted caller waiting (log entry 29): the transfer opens and ADDRESS_MATCH is
delivered, at which the callback may lend a buffer that counts for this transfer (`slaveCalled`). In interrupt transport the
direction is latched from SRW, in DMA transport it is that of the buffer lent last before the match. In DMA transport a
channel found armed by a repeated start is settled and stopped first, its request off and BNDIE on again (log entries 12,
13); then the channel takes all transmit bytes but the first, or all receive bytes but the last, BNDIE is off and its request
on, when there are two or more. A transmitter hands over its first byte itself; with nothing buffered it asks for a buffer and
then sends SLAVE_FILL (here with a callback that lends nothing). -/
def Obligations.SlaveAddressMatchOpensTransfer : Prop :=
  ∀ (i : BusId) (s : State), SlaveMatchEvent i s → calledQuietly i s →
    ∃ (dma armed : Bool) (c : Chan) (r : State) (x y : SCtx) (l : List CbRecord) (core : BusCore),
      dma = ((s.s i).transport == .dma) ∧ c = (s.s i).dmaChannel ∧
      armed = (dma && (s.chan c).owner == .some i) ∧
      slaveCalled i .addressMatch s
        { s.s i with
          inProgress := true
          lastResult := if (s.s i).inProgress then (s.s i).lastResult else .busy
          curDir := if dma then (s.s i).dmaDir else if (s.core i).srw then .tx else .rx } r x l ∧
      y = (if armed then x.settled (s.chan c).remaining else x) ∧
      core =
        { s.core i with
          addrmatch := false, dir := x.curDir
          bndie := armed || (s.core i).bndie
          dmatxen := !armed && (s.core i).dmatxen, dmarxen := !armed && (s.core i).dmarxen } ∧
      (x.curDir = .rx → ∀ (bulk : Bool) (a : Word), bulk = (dma && decide (2 ≤ y.rxRemaining)) →
        (bulk = true → y.rxBuf = .some a) →
        runInput (.dispatch i) s = .next
          (((if armed then r.channelSettledStopped i c else r).channelStarted bulk c (.data i) (.mem (a + y.rxCursor))
              (y.rxRemaining - 1) .dev2mem i).setBus i
            { s.bus i with
              core :=
                { core with
                  acksel := if y.rxRemaining = 0 then .nack else .ack
                  bndie := !bulk && core.bndie, dmarxen := bulk || core.dmarxen }
              s := { y with unsettled := if bulk then .some .rx else y.unsettled }
              phase := .data, cbtrace := (s.bus i).cbtrace ++ l })) ∧
      (x.curDir = .tx → ∀ (bulk : Bool) (sent : Byte → BusCore),
        bulk = (dma && decide (2 ≤ y.txRemaining)) →
        (∀ b, sent b =
          { core with
            data := b, bnd := false
            bndie := !bulk && core.bndie, dmatxen := bulk || core.dmatxen
            pend :=
              if (s.core i).moden = true ∧ ((s.core i).owner = true ∨ ((s.core i).sel = true ∧ (s.core i).srw = true))
              then .txByte b else (s.core i).pend }) →
        (∀ a, y.txBuf = .some a → y.txRemaining ≠ 0 →
          runInput (.dispatch i) s = .next
            (((if armed then r.channelSettledStopped i c else r).channelStarted bulk c (.mem (a + 1)) (.data i)
                (y.txRemaining - 1) .mem2dev i).setBus i
              { s.bus i with
                core := sent (s.load a)
                s :=
                  { y with
                    txBuf := .some (a + 1), txRemaining := y.txRemaining - 1
                    unsettled := if bulk then .some .tx else y.unsettled }
                phase := .data, cbtrace := (s.bus i).cbtrace ++ l })) ∧
        (y.txRemaining = 0 →
          ((s.s i).cb = .none →
            runInput (.dispatch i) s = .next ((if armed then r.channelSettledStopped i c else r).setBus i
              { s.bus i with
                core := sent s.params.slaveFill, s := { y with lastResult := .txUnderrun }, phase := .data })) ∧
          (∀ user, (s.s i).cb = .some user → r.drawCb.1 = .nothing → r.drawCb.2.drawCb.1 = .nothing →
            runInput (.dispatch i) s = .next
              ((if armed then r.drawCb.2.drawCb.2.channelSettledStopped i c else r.drawCb.2.drawCb.2).setBus i
                { s.bus i with
                  core := sent s.params.slaveFill, s := { y with lastResult := .txUnderrun }, phase := .data
                  cbtrace := (s.bus i).cbtrace ++ l ++ [⟨i, .txEmpty, user⟩, ⟨i, .error, user⟩] }))))


/-- R300, R284, R315 (b), (c), R366: a stop seen by a slave, dispatched alone, ends the transfer: BUSY becomes SUCCESS and a
recorded error stays; a one-shot slave is disarmed and its buffers unset, a listening one keeps both; the waiting caller's
semaphore is posted and END_OF_TRANSFER delivered. In DMA transport the counts are settled (log entry 13), the channel stopped
(log entry 11) and the requests off before, and a listening slave has BNDIE on again. Of the model's own fields (log entry 21)
nothing is said. R287: one dispatch serves every pending enabled source once: the byte event, then the stop, then the address
match, so that the old transfer ends before the new one begins; each is what its own dispatch does. That the match stays
pending while the caller the stop has posted is not yet awake is the model's reading (log entry 29), and so is that the match
of a one-shot slave, which the stop disarms, stays pending (log entry 10). That a stop with no transfer in progress does all this
too is log entry 40. -/
def Obligations.SlaveStopEndsTransfer : Prop :=
  (∀ (i : BusId) (s : State), (s.bus i).role = .slave → (s.core i).arblost = false → noDmaEvent i s →
    (∀ u, ((s.core i).bnd = true ∧ (s.core i).bndie = true) ∨ ((s.core i).rxnack = true ∧ (s.core i).nackie = true) →
      runInput (.dispatch i) (s.withEvents i false false) = .next u →
      runInput (.dispatch i) s =
        runInput (.dispatch i) (u.withEvents i (s.core i).stopf (s.core i).addrmatch)) ∧
    ((s.core i).bnd = false → (s.core i).rxnack = false → (s.core i).stopf = true → (s.core i).stopie = true →
      (s.core i).addrmatch = true →
      ∃ u, runInput (.dispatch i) (s.withEvents i true false) = .next u ∧
        ((s.s i).listening = true → (s.core i).addrie = true → (u.bus i).wait = .none ∨ (u.bus i).sem = 0 →
          runInput (.dispatch i) s = runInput (.dispatch i) (u.withEvents i false true)) ∧
        ((s.s i).listening = false ∨ (s.core i).addrie = false ∨ ((u.bus i).wait.isSome = true ∧ (u.bus i).sem ≠ 0) →
          runInput (.dispatch i) s = .next (u.withEvents i false true)))) ∧
  ∀ (i : BusId) (s : State), SlaveStopEvent i s →
    ∃ (dma : Bool) (c : Chan) (core : BusCore) (r : State) (x y z : SCtx),
      dma = ((s.s i).transport == .dma) ∧ c = (s.s i).dmaChannel ∧
      r = (if dma then s.channelSettledStopped i c else s) ∧
      x = (if dma then s.settledCounts i c (s.s i) else s.s i) ∧
      core =
        (if (s.s i).listening then
          { s.core i with
            stopf := false, bndie := dma || (s.core i).bndie
            dmatxen := !dma && (s.core i).dmatxen, dmarxen := !dma && (s.core i).dmarxen }
        else
          { s.core i with
            stopf := false, addrie := false, stopie := false, nackie := false, bndie := false, dmatxen := false
            dmarxen := false }) ∧
      y =
        (if (s.s i).listening then x
        else ({ x with txBuf := .none, txRemaining := 0, rxBuf := .none, rxRemaining := 0 } : SCtx).own z) ∧
      runInput (.dispatch i) s = .next
        { r.setBus i
            (Bus.called
              { s.bus i with
                core := core
                s :=
                  { y with
                    inProgress := false, idle := true
                    lastResult := if (s.s i).lastResult = .busy then .success else (s.s i).lastResult }
                phase := .idle
                sem := if (s.s i).idle = false ∧ (s.s i).blocking = true then (s.bus i).sem + 1 else (s.bus i).sem }
              i (s.s i).cb .endOfTransfer) with
          dmatrace := r.dmatrace ++ (if (s.s i).idle then [] else [.idle i]) }


/-- R315 (d): the slave's commands, its handlers and the resumes of its blocking commands put no symbol on the wire. The bus
step that carries a byte of a slave, and a sequencer routine issued on one, are no part of this statement (R169, log entry 33). -/
def Obligations.SlaveCommandsAddNoSymbol : Prop :=
  ∀ (i : BusId) (s t : State), (s.bus i).role = .slave →
    ((∃ x : Instr, x.slaveOnly = true ∧ x.inst = i ∧ exec x s = .next t) ∨ exec (.irqEntry i) s = .next t ∨
      runInput (.dispatch i) s = .next t ∨ runInput (.wake i) s = .next t ∨ runInput (.timeout i) s = .next t) →
    (t.bus i).trace = (s.bus i).trace

/-! ## DMA -/

/-- R358, R364, R499: the channel serves one request of the core it is installed for: one byte from memory to the data
register, or from the data register to memory, the address advanced, the count less by one, and at 0 the channel done.
Without a request, inactive, or installed for no instance, it does nothing. A byte that went the other way on an addressed
slave, which R358's enabling condition taken alone would let it serve, stays and the bus stalls: the model's reading of R364
and R499 (log entry 31). A channel error ends an active channel. -/
def Obligations.DmaServesOneByte : Prop :=
  (∀ (c : Chan) (s : State),
    ((s.chan c).owner = .none → runInput (.dmaServe c) s = .next s) ∧
    ((s.chan c).active = true →
      runInput (.dmaFail c) s = .next (s.setChan c { s.chan c with active := false, err := true })) ∧
    ((s.chan c).active = false → runInput (.dmaFail c) s = .next s)) ∧
  ∀ (c : Chan) (i : BusId) (s : State), (s.chan c).owner = .some i →
    ((s.chan c).active = false ∨ (s.core i).dreq = false → runInput (.dmaServe c) s = .next s) ∧
    ((s.core i).mstr = false → (s.core i).srw ≠ ((s.chan c).dir == .mem2dev) → runInput (.dmaServe c) s = .next s) ∧
    ((s.chan c).active = true → (s.core i).dreq = true →
      (s.core i).mstr = true ∨ (s.core i).srw = ((s.chan c).dir == .mem2dev) →
      (∀ a, (s.chan c).dir = .mem2dev → (s.chan c).src = .mem a →
        runInput (.dmaServe c) s = .next
          ((s.setChan c
            { s.chan c with
              src := .mem (a + 1), remaining := (s.chan c).remaining - 1
              active := (s.chan c).remaining != 1, done := (s.chan c).done || (s.chan c).remaining == 1 }).setBus i
            { s.bus i with core := (s.core i).writeData (s.load a) })) ∧
      (∀ a, (s.chan c).dir = .dev2mem → (s.chan c).dst = .mem a →
        runInput (.dmaServe c) s = .next
          (((s.store a (s.core i).data).setChan c
            { s.chan c with
              dst := .mem (a + 1), remaining := (s.chan c).remaining - 1
              active := (s.chan c).remaining != 1, done := (s.chan c).done || (s.chan c).remaining == 1 }).setBus i
            { s.bus i with core := (s.core i).readData })))

/-- R360, R361, R365, R366: completion of the channel hands the transfer back to the byte interrupt and brings the counts of
the context up to date, for a master and for a slave (log entry 13); of an idle master it only clears the event. An error of
a slave's channel does the same, with the channel stopped, and records ERROR; that the requests are off before BNDIE is on is
R354's order (log entry 12). -/
def Obligations.DmaCompletionSettlesCounts : Prop :=
  (∀ (i : BusId) (s : State), (s.chan (s.ctx i).dmaChannel).owner = .some i →
    (s.chan (s.ctx i).dmaChannel).done = true → (s.chan (s.ctx i).dmaChannel).err = false →
    ((s.bus i).role = .master → (s.m i).idle = true →
      runInput (.dispatch i) s = .next
        (s.setChan (s.m i).dmaChannel { s.chan (s.m i).dmaChannel with done := false })) ∧
    ((s.bus i).role = .master → (s.m i).idle = false →
      runInput (.dispatch i) s = .next
        ((s.setChan (s.m i).dmaChannel { s.chan (s.m i).dmaChannel with done := false }).setBus i
          { s.bus i with
            core := { s.core i with dmatxen := false, dmarxen := false, bndie := true }
            m :=
              if (s.m i).txBuf.isSome then
                { s.m i with txBuf := (s.m i).txBuf.map (· + (s.m i).txRemaining), txRemaining := 0 }
              else
                { s.m i with rxCursor := (s.m i).rxCursor + ((s.m i).rxRemaining - 2), rxRemaining := 2 } })) ∧
    ((s.bus i).role = .slave →
      runInput (.dispatch i) s = .next
        ((s.setChan (s.s i).dmaChannel
          { s.chan (s.s i).dmaChannel with done := false, remaining := 0, owner := .none }).setBus i
          { s.bus i with
            core := { s.core i with dmatxen := false, dmarxen := false, bndie := true }
            s := (s.s i).settled (s.chan (s.s i).dmaChannel).remaining }))) ∧
  ∀ (i : BusId) (s : State), (s.bus i).role = .slave → (s.chan (s.s i).dmaChannel).owner = .some i →
    (s.chan (s.s i).dmaChannel).err = true →
    ((s.s i).cb = .none →
      runInput (.dispatch i) s = .next ((s.channelSettledStopped i (s.s i).dmaChannel).setBus i
        { s.bus i with
          core := { s.core i with dmatxen := false, dmarxen := false, bndie := true }
          s := { (s.s i).settled (s.chan (s.s i).dmaChannel).remaining with lastResult := .error }
          phase := .data })) ∧
    (∀ user, (s.s i).cb = .some user → s.drawCb.1 = .nothing →
      runInput (.dispatch i) s = .next ((s.drawCb.2.channelSettledStopped i (s.s i).dmaChannel).setBus i
        { s.bus i with
          core := { s.core i with dmatxen := false, dmarxen := false, bndie := true }
          s := { (s.s i).settled (s.chan (s.s i).dmaChannel).remaining with lastResult := .error }
          phase := .data, cbtrace := (s.bus i).cbtrace ++ [⟨i, .error, user⟩] }))


/-! ## Blocking commands -/

/-- R386, R388: the two resumes. A posted semaphore wakes the caller with `lastResult`; otherwise the timeout
does what the abort does (the channel stopped once more, first, while a receive is outstanding) and overwrites the result
with TIMEOUT. Without a suspended command neither does anything. R411: OUT0 of an operation admitted meanwhile is overwritten,
with what no rule states, and else it stays as it was (log entry 30). R390 (c): in every state that keeps the invariant either
resume leaves the context idle, in no transfer and nothing suspended. R447, R460, R461: no handler resumes a caller, clears
`blocking` or writes RET, and no operation ends a suspension. R388, R474: in every state that keeps the invariant the result that
waits for the wake is not BUSY, and no dispatch and no operation changes it; an address match of a posted slave stays pending
until the wake (log entry 29). -/
def Obligations.BlockingResumes : Prop :=
  ∀ (i : BusId) (s : State),
    ((s.bus i).wait = .none → runInput (.wake i) s = .next s ∧ runInput (.timeout i) s = .next s) ∧
    ((s.bus i).wait.isSome = true → (s.bus i).sem = 0 → runInput (.wake i) s = .next s) ∧
    ((s.bus i).wait.isSome = true → (s.bus i).sem ≠ 0 → runInput (.timeout i) s = .next s) ∧
    ((s.bus i).role = .master → (s.bus i).wait.isSome = true →
      ((s.bus i).sem ≠ 0 →
        ∃ v, runInput (.wake i) s = .next
          (((s.outOverwritten i v).setBus i
            { s.bus i with
              sem := (s.bus i).sem - 1, wait := .none, outGiven := false
              m := { s.m i with blocking := false } }).setRet (s.m i).lastResult)) ∧
      ((s.bus i).sem = 0 →
        ∃ u v, exec (.mAbort i)
            (if (s.m i).idle = false ∧ (s.m i).rxBuf.isSome = true then s.channelStopped (s.m i).toXfer else s) = .next u ∧
          runInput (.timeout i) s = .next
            (((u.outOverwritten i v).setBus i
              { u.bus i with
                sem := 0, wait := .none, outGiven := false
                m := { u.m i with lastResult := .timeout, blocking := false } }).setRet .timeout))) ∧
    ((s.bus i).role = .slave → (s.bus i).wait.isSome = true →
      ((s.bus i).sem ≠ 0 →
        ∃ v, runInput (.wake i) s = .next
          (((s.outOverwritten i v).setBus i
            { s.bus i with
              sem := (s.bus i).sem - 1, wait := .none, outGiven := false
              s := { s.s i with blocking := false } }).setRet (s.s i).lastResult)) ∧
      ((s.bus i).sem = 0 →
        ∃ u v, exec (.sAbort i)
            (if ((s.s i).idle = false ∨ (s.s i).inProgress = true) ∧ (s.s i).rxBuf.isSome = true then
              s.channelStopped (s.s i).toXfer else s) = .next u ∧
          runInput (.timeout i) s = .next
            (((u.outOverwritten i v).setBus i
              { u.bus i with
                sem := 0, wait := .none, outGiven := false
                s := { u.s i with lastResult := .timeout, blocking := false } }).setRet .timeout))) ∧
    (∀ t, Inv s → (s.bus i).wait.isSome = true →
      ((s.bus i).sem ≠ 0 ∧ runInput (.wake i) s = .next t) ∨ ((s.bus i).sem = 0 ∧ runInput (.timeout i) s = .next t) →
      (t.bus i).wait = .none ∧ (t.ctx i).blocking = false ∧ (t.ctx i).idle = true ∧
        ((s.bus i).role = .slave → (t.s i).inProgress = false)) ∧
    (∀ j t, runInput (.dispatch j) s = .next t →
      (t.bus i).wait = (s.bus i).wait ∧ (t.ctx i).blocking = (s.ctx i).blocking ∧ t.port = s.port) ∧
    (∀ x t, (s.bus i).wait.isSome = true → exec x s = .next t → (t.bus i).wait = (s.bus i).wait) ∧
    (Inv s → (s.bus i).wait.isSome = true → (s.bus i).sem ≠ 0 →
      (s.ctx i).lastResult ≠ .busy ∧
      ∀ t, (∃ j, runInput (.dispatch j) s = .next t) ∨ (∃ x, exec x s = .next t) →
        (t.ctx i).lastResult = (s.ctx i).lastResult) ∧
    ((s.bus i).role = .slave → (s.bus i).wait.isSome = true → (s.bus i).sem ≠ 0 → (s.core i).addrmatch = true →
      (s.core i).bnd = false → (s.core i).rxnack = false → (s.core i).stopf = false → (s.core i).arblost = false →
      noDmaEvent i s → runInput (.dispatch i) s = .next s)

/-! ## The whole machine -/

/-- R90, R473, R75: what an operation on instance `i` can touch, for every operation and every draw. No other instance; no
channel but the one its context is bound to; no operand of the port; memory only through a handler that IRQ_ENTRY runs, and
then only the byte at `rxBuf + rxCursor` of the context as it was. -/
def Obligations.OperationFrame : Prop :=
  ∀ (x : Instr) (s t : State), exec x s = .next t →
    (∀ j, j ≠ x.inst → t.bus j = s.bus j) ∧
    (∀ c, c ≠ (s.ctx x.inst).dmaChannel → t.chan c = s.chan c) ∧
    t.params = s.params ∧ t.env.inputs = s.env.inputs ∧
    t.port = { s.port with ret := t.port.ret, out0 := t.port.out0 } ∧
    ((∀ i, x ≠ .irqEntry i) → t.mem = s.mem) ∧
    (∀ a : Word, a ≠ bufAddr (s.ctx x.inst).rxBuf + (s.ctx x.inst).rxCursor → t.load a = s.load a)
end

