-- ==== Sys2Proof/Laws/State.lean ====
section
/-! SUPPORT. Laws/State.lean: what every update of the state leaves alone, one lemma per field and update, true by
unfolding; and what the update of one instance or channel shows of it and of the others. -/

namespace Sys2Proof.Machine

@[simp] theorem State.setBus_params (s : State) (i : BusId) (b : Bus) : (s.setBus i b).params = s.params := rfl
@[simp] theorem State.setBus_dma (s : State) (i : BusId) (b : Bus) : (s.setBus i b).dma = s.dma := rfl
@[simp] theorem State.setBus_dmatrace (s : State) (i : BusId) (b : Bus) : (s.setBus i b).dmatrace = s.dmatrace := rfl
@[simp] theorem State.setBus_mem (s : State) (i : BusId) (b : Bus) : (s.setBus i b).mem = s.mem := rfl
@[simp] theorem State.setBus_port (s : State) (i : BusId) (b : Bus) : (s.setBus i b).port = s.port := rfl
@[simp] theorem State.setBus_env (s : State) (i : BusId) (b : Bus) : (s.setBus i b).env = s.env := rfl
@[simp] theorem State.modBus_params (s : State) (i : BusId) (f : Bus → Bus) : (s.modBus i f).params = s.params := rfl
@[simp] theorem State.modBus_dma (s : State) (i : BusId) (f : Bus → Bus) : (s.modBus i f).dma = s.dma := rfl
@[simp] theorem State.modBus_dmatrace (s : State) (i : BusId) (f : Bus → Bus) : (s.modBus i f).dmatrace = s.dmatrace := rfl
@[simp] theorem State.modBus_mem (s : State) (i : BusId) (f : Bus → Bus) : (s.modBus i f).mem = s.mem := rfl
@[simp] theorem State.modBus_port (s : State) (i : BusId) (f : Bus → Bus) : (s.modBus i f).port = s.port := rfl
@[simp] theorem State.modBus_env (s : State) (i : BusId) (f : Bus → Bus) : (s.modBus i f).env = s.env := rfl
@[simp] theorem State.modCore_params (s : State) (i : BusId) (f : BusCore → BusCore) : (s.modCore i f).params = s.params := rfl
@[simp] theorem State.modCore_dma (s : State) (i : BusId) (f : BusCore → BusCore) : (s.modCore i f).dma = s.dma := rfl
@[simp] theorem State.modCore_dmatrace (s : State) (i : BusId) (f : BusCore → BusCore) : (s.modCore i f).dmatrace = s.dmatrace := rfl
@[simp] theorem State.modCore_mem (s : State) (i : BusId) (f : BusCore → BusCore) : (s.modCore i f).mem = s.mem := rfl
@[simp] theorem State.modCore_port (s : State) (i : BusId) (f : BusCore → BusCore) : (s.modCore i f).port = s.port := rfl
@[simp] theorem State.modCore_env (s : State) (i : BusId) (f : BusCore → BusCore) : (s.modCore i f).env = s.env := rfl
@[simp] theorem State.modM_params (s : State) (i : BusId) (f : MCtx → MCtx) : (s.modM i f).params = s.params := rfl
@[simp] theorem State.modM_dma (s : State) (i : BusId) (f : MCtx → MCtx) : (s.modM i f).dma = s.dma := rfl
@[simp] theorem State.modM_dmatrace (s : State) (i : BusId) (f : MCtx → MCtx) : (s.modM i f).dmatrace = s.dmatrace := rfl
@[simp] theorem State.modM_mem (s : State) (i : BusId) (f : MCtx → MCtx) : (s.modM i f).mem = s.mem := rfl
@[simp] theorem State.modM_port (s : State) (i : BusId) (f : MCtx → MCtx) : (s.modM i f).port = s.port := rfl
@[simp] theorem State.modM_env (s : State) (i : BusId) (f : MCtx → MCtx) : (s.modM i f).env = s.env := rfl
@[simp] theorem State.modS_params (s : State) (i : BusId) (f : SCtx → SCtx) : (s.modS i f).params = s.params := rfl
@[simp] theorem State.modS_dma (s : State) (i : BusId) (f : SCtx → SCtx) : (s.modS i f).dma = s.dma := rfl
@[simp] theorem State.modS_dmatrace (s : State) (i : BusId) (f : SCtx → SCtx) : (s.modS i f).dmatrace = s.dmatrace := rfl
@[simp] theorem State.modS_mem (s : State) (i : BusId) (f : SCtx → SCtx) : (s.modS i f).mem = s.mem := rfl
@[simp] theorem State.modS_port (s : State) (i : BusId) (f : SCtx → SCtx) : (s.modS i f).port = s.port := rfl
@[simp] theorem State.modS_env (s : State) (i : BusId) (f : SCtx → SCtx) : (s.modS i f).env = s.env := rfl
@[simp] theorem State.modMX_params (s : State) (i : BusId) (f : Xfer → Xfer) : (s.modMX i f).params = s.params := rfl
@[simp] theorem State.modMX_dma (s : State) (i : BusId) (f : Xfer → Xfer) : (s.modMX i f).dma = s.dma := rfl
@[simp] theorem State.modMX_dmatrace (s : State) (i : BusId) (f : Xfer → Xfer) : (s.modMX i f).dmatrace = s.dmatrace := rfl
@[simp] theorem State.modMX_mem (s : State) (i : BusId) (f : Xfer → Xfer) : (s.modMX i f).mem = s.mem := rfl
@[simp] theorem State.modMX_port (s : State) (i : BusId) (f : Xfer → Xfer) : (s.modMX i f).port = s.port := rfl
@[simp] theorem State.modMX_env (s : State) (i : BusId) (f : Xfer → Xfer) : (s.modMX i f).env = s.env := rfl
@[simp] theorem State.modSX_params (s : State) (i : BusId) (f : Xfer → Xfer) : (s.modSX i f).params = s.params := rfl
@[simp] theorem State.modSX_dma (s : State) (i : BusId) (f : Xfer → Xfer) : (s.modSX i f).dma = s.dma := rfl
@[simp] theorem State.modSX_dmatrace (s : State) (i : BusId) (f : Xfer → Xfer) : (s.modSX i f).dmatrace = s.dmatrace := rfl
@[simp] theorem State.modSX_mem (s : State) (i : BusId) (f : Xfer → Xfer) : (s.modSX i f).mem = s.mem := rfl
@[simp] theorem State.modSX_port (s : State) (i : BusId) (f : Xfer → Xfer) : (s.modSX i f).port = s.port := rfl
@[simp] theorem State.modSX_env (s : State) (i : BusId) (f : Xfer → Xfer) : (s.modSX i f).env = s.env := rfl
@[simp] theorem State.modCtx_params (s : State) (i : BusId) (f : Xfer → Xfer) : (s.modCtx i f).params = s.params := rfl
@[simp] theorem State.modCtx_dma (s : State) (i : BusId) (f : Xfer → Xfer) : (s.modCtx i f).dma = s.dma := rfl
@[simp] theorem State.modCtx_dmatrace (s : State) (i : BusId) (f : Xfer → Xfer) : (s.modCtx i f).dmatrace = s.dmatrace := rfl
@[simp] theorem State.modCtx_mem (s : State) (i : BusId) (f : Xfer → Xfer) : (s.modCtx i f).mem = s.mem := rfl
@[simp] theorem State.modCtx_port (s : State) (i : BusId) (f : Xfer → Xfer) : (s.modCtx i f).port = s.port := rfl
@[simp] theorem State.modCtx_env (s : State) (i : BusId) (f : Xfer → Xfer) : (s.modCtx i f).env = s.env := rfl
@[simp] theorem State.setPhase_params (s : State) (i : BusId) (p : Phase) : (s.setPhase i p).params = s.params := rfl
@[simp] theorem State.setPhase_dma (s : State) (i : BusId) (p : Phase) : (s.setPhase i p).dma = s.dma := rfl
@[simp] theorem State.setPhase_dmatrace (s : State) (i : BusId) (p : Phase) : (s.setPhase i p).dmatrace = s.dmatrace := rfl
@[simp] theorem State.setPhase_mem (s : State) (i : BusId) (p : Phase) : (s.setPhase i p).mem = s.mem := rfl
@[simp] theorem State.setPhase_port (s : State) (i : BusId) (p : Phase) : (s.setPhase i p).port = s.port := rfl
@[simp] theorem State.setPhase_env (s : State) (i : BusId) (p : Phase) : (s.setPhase i p).env = s.env := rfl
@[simp] theorem State.busStep_params (s : State) (i : BusId) (d : BusDraw) : (s.busStep i d).params = s.params := rfl
@[simp] theorem State.busStep_dma (s : State) (i : BusId) (d : BusDraw) : (s.busStep i d).dma = s.dma := rfl
@[simp] theorem State.busStep_dmatrace (s : State) (i : BusId) (d : BusDraw) : (s.busStep i d).dmatrace = s.dmatrace := rfl
@[simp] theorem State.busStep_mem (s : State) (i : BusId) (d : BusDraw) : (s.busStep i d).mem = s.mem := rfl
@[simp] theorem State.busStep_port (s : State) (i : BusId) (d : BusDraw) : (s.busStep i d).port = s.port := rfl
@[simp] theorem State.busStep_env (s : State) (i : BusId) (d : BusDraw) : (s.busStep i d).env = s.env := rfl
@[simp] theorem State.notify_params (s : State) (i : BusId) (e : Event) : (s.notify i e).params = s.params := rfl
@[simp] theorem State.notify_dma (s : State) (i : BusId) (e : Event) : (s.notify i e).dma = s.dma := rfl
@[simp] theorem State.notify_dmatrace (s : State) (i : BusId) (e : Event) : (s.notify i e).dmatrace = s.dmatrace := rfl
@[simp] theorem State.notify_mem (s : State) (i : BusId) (e : Event) : (s.notify i e).mem = s.mem := rfl
@[simp] theorem State.notify_port (s : State) (i : BusId) (e : Event) : (s.notify i e).port = s.port := rfl
@[simp] theorem State.notify_env (s : State) (i : BusId) (e : Event) : (s.notify i e).env = s.env := rfl
@[simp] theorem State.setChan_params (s : State) (c : Chan) (d : DmaChan) : (s.setChan c d).params = s.params := rfl
@[simp] theorem State.setChan_buses (s : State) (c : Chan) (d : DmaChan) : (s.setChan c d).buses = s.buses := rfl
@[simp] theorem State.setChan_dmatrace (s : State) (c : Chan) (d : DmaChan) : (s.setChan c d).dmatrace = s.dmatrace := rfl
@[simp] theorem State.setChan_mem (s : State) (c : Chan) (d : DmaChan) : (s.setChan c d).mem = s.mem := rfl
@[simp] theorem State.setChan_port (s : State) (c : Chan) (d : DmaChan) : (s.setChan c d).port = s.port := rfl
@[simp] theorem State.setChan_env (s : State) (c : Chan) (d : DmaChan) : (s.setChan c d).env = s.env := rfl
@[simp] theorem State.modChan_params (s : State) (c : Chan) (f : DmaChan → DmaChan) : (s.modChan c f).params = s.params := rfl
@[simp] theorem State.modChan_buses (s : State) (c : Chan) (f : DmaChan → DmaChan) : (s.modChan c f).buses = s.buses := rfl
@[simp] theorem State.modChan_dmatrace (s : State) (c : Chan) (f : DmaChan → DmaChan) : (s.modChan c f).dmatrace = s.dmatrace := rfl
@[simp] theorem State.modChan_mem (s : State) (c : Chan) (f : DmaChan → DmaChan) : (s.modChan c f).mem = s.mem := rfl
@[simp] theorem State.modChan_port (s : State) (c : Chan) (f : DmaChan → DmaChan) : (s.modChan c f).port = s.port := rfl
@[simp] theorem State.modChan_env (s : State) (c : Chan) (f : DmaChan → DmaChan) : (s.modChan c f).env = s.env := rfl
@[simp] theorem State.logDma_params (s : State) (x : DmaCall) : (s.logDma x).params = s.params := rfl
@[simp] theorem State.logDma_buses (s : State) (x : DmaCall) : (s.logDma x).buses = s.buses := rfl
@[simp] theorem State.logDma_dma (s : State) (x : DmaCall) : (s.logDma x).dma = s.dma := rfl
@[simp] theorem State.logDma_mem (s : State) (x : DmaCall) : (s.logDma x).mem = s.mem := rfl
@[simp] theorem State.logDma_port (s : State) (x : DmaCall) : (s.logDma x).port = s.port := rfl
@[simp] theorem State.logDma_env (s : State) (x : DmaCall) : (s.logDma x).env = s.env := rfl
@[simp] theorem State.store_params (s : State) (a : Word) (b : Byte) : (s.store a b).params = s.params := rfl
@[simp] theorem State.store_buses (s : State) (a : Word) (b : Byte) : (s.store a b).buses = s.buses := rfl
@[simp] theorem State.store_dma (s : State) (a : Word) (b : Byte) : (s.store a b).dma = s.dma := rfl
@[simp] theorem State.store_dmatrace (s : State) (a : Word) (b : Byte) : (s.store a b).dmatrace = s.dmatrace := rfl
@[simp] theorem State.store_port (s : State) (a : Word) (b : Byte) : (s.store a b).port = s.port := rfl
@[simp] theorem State.store_env (s : State) (a : Word) (b : Byte) : (s.store a b).env = s.env := rfl
@[simp] theorem State.setRetWord_params (s : State) (v : Word) : (s.setRetWord v).params = s.params := rfl
@[simp] theorem State.setRetWord_buses (s : State) (v : Word) : (s.setRetWord v).buses = s.buses := rfl
@[simp] theorem State.setRetWord_dma (s : State) (v : Word) : (s.setRetWord v).dma = s.dma := rfl
@[simp] theorem State.setRetWord_dmatrace (s : State) (v : Word) : (s.setRetWord v).dmatrace = s.dmatrace := rfl
@[simp] theorem State.setRetWord_mem (s : State) (v : Word) : (s.setRetWord v).mem = s.mem := rfl
@[simp] theorem State.setRetWord_env (s : State) (v : Word) : (s.setRetWord v).env = s.env := rfl
@[simp] theorem State.setRet_params (s : State) (r : Result) : (s.setRet r).params = s.params := rfl
@[simp] theorem State.setRet_buses (s : State) (r : Result) : (s.setRet r).buses = s.buses := rfl
@[simp] theorem State.setRet_dma (s : State) (r : Result) : (s.setRet r).dma = s.dma := rfl
@[simp] theorem State.setRet_dmatrace (s : State) (r : Result) : (s.setRet r).dmatrace = s.dmatrace := rfl
@[simp] theorem State.setRet_mem (s : State) (r : Result) : (s.setRet r).mem = s.mem := rfl
@[simp] theorem State.setRet_env (s : State) (r : Result) : (s.setRet r).env = s.env := rfl
@[simp] theorem State.setOut0_params (s : State) (v : Word) : (s.setOut0 v).params = s.params := rfl
@[simp] theorem State.setOut0_buses (s : State) (v : Word) : (s.setOut0 v).buses = s.buses := rfl
@[simp] theorem State.setOut0_dma (s : State) (v : Word) : (s.setOut0 v).dma = s.dma := rfl
@[simp] theorem State.setOut0_dmatrace (s : State) (v : Word) : (s.setOut0 v).dmatrace = s.dmatrace := rfl
@[simp] theorem State.setOut0_mem (s : State) (v : Word) : (s.setOut0 v).mem = s.mem := rfl
@[simp] theorem State.setOut0_env (s : State) (v : Word) : (s.setOut0 v).env = s.env := rfl
@[simp] theorem State.setRdata_params (s : State) (v : Word) : (s.setRdata v).params = s.params := rfl
@[simp] theorem State.setRdata_buses (s : State) (v : Word) : (s.setRdata v).buses = s.buses := rfl
@[simp] theorem State.setRdata_dma (s : State) (v : Word) : (s.setRdata v).dma = s.dma := rfl
@[simp] theorem State.setRdata_dmatrace (s : State) (v : Word) : (s.setRdata v).dmatrace = s.dmatrace := rfl
@[simp] theorem State.setRdata_mem (s : State) (v : Word) : (s.setRdata v).mem = s.mem := rfl
@[simp] theorem State.setRdata_env (s : State) (v : Word) : (s.setRdata v).env = s.env := rfl
@[simp] theorem State.setPort_params (s : State) (p : Port) : (s.setPort p).params = s.params := rfl
@[simp] theorem State.setPort_buses (s : State) (p : Port) : (s.setPort p).buses = s.buses := rfl
@[simp] theorem State.setPort_dma (s : State) (p : Port) : (s.setPort p).dma = s.dma := rfl
@[simp] theorem State.setPort_dmatrace (s : State) (p : Port) : (s.setPort p).dmatrace = s.dmatrace := rfl
@[simp] theorem State.setPort_mem (s : State) (p : Port) : (s.setPort p).mem = s.mem := rfl
@[simp] theorem State.setPort_env (s : State) (p : Port) : (s.setPort p).env = s.env := rfl
@[simp] theorem State.withInputs_params (s : State) (l : List Input) : (s.withInputs l).params = s.params := rfl
@[simp] theorem State.withInputs_buses (s : State) (l : List Input) : (s.withInputs l).buses = s.buses := rfl
@[simp] theorem State.withInputs_dma (s : State) (l : List Input) : (s.withInputs l).dma = s.dma := rfl
@[simp] theorem State.withInputs_dmatrace (s : State) (l : List Input) : (s.withInputs l).dmatrace = s.dmatrace := rfl
@[simp] theorem State.withInputs_mem (s : State) (l : List Input) : (s.withInputs l).mem = s.mem := rfl
@[simp] theorem State.withInputs_port (s : State) (l : List Input) : (s.withInputs l).port = s.port := rfl

@[simp] theorem State.setBus_chan (s : State) (i : BusId) (b : Bus) (k : Chan) : (s.setBus i b).chan k = s.chan k := rfl
@[simp] theorem State.modBus_chan (s : State) (i : BusId) (f : Bus → Bus) (k : Chan) : (s.modBus i f).chan k = s.chan k := rfl
@[simp] theorem State.modCore_chan (s : State) (i : BusId) (f : BusCore → BusCore) (k : Chan) : (s.modCore i f).chan k = s.chan k := rfl
@[simp] theorem State.modM_chan (s : State) (i : BusId) (f : MCtx → MCtx) (k : Chan) : (s.modM i f).chan k = s.chan k := rfl
@[simp] theorem State.modS_chan (s : State) (i : BusId) (f : SCtx → SCtx) (k : Chan) : (s.modS i f).chan k = s.chan k := rfl
@[simp] theorem State.modMX_chan (s : State) (i : BusId) (f : Xfer → Xfer) (k : Chan) : (s.modMX i f).chan k = s.chan k := rfl
@[simp] theorem State.modSX_chan (s : State) (i : BusId) (f : Xfer → Xfer) (k : Chan) : (s.modSX i f).chan k = s.chan k := rfl
@[simp] theorem State.modCtx_chan (s : State) (i : BusId) (f : Xfer → Xfer) (k : Chan) : (s.modCtx i f).chan k = s.chan k := rfl
@[simp] theorem State.setPhase_chan (s : State) (i : BusId) (p : Phase) (k : Chan) : (s.setPhase i p).chan k = s.chan k := rfl
@[simp] theorem State.busStep_chan (s : State) (i : BusId) (d : BusDraw) (k : Chan) : (s.busStep i d).chan k = s.chan k := rfl
@[simp] theorem State.notify_chan (s : State) (i : BusId) (e : Event) (k : Chan) : (s.notify i e).chan k = s.chan k := rfl
@[simp] theorem State.setChan_bus (s : State) (c : Chan) (d : DmaChan) (j : BusId) : (s.setChan c d).bus j = s.bus j := rfl
@[simp] theorem State.modChan_bus (s : State) (c : Chan) (f : DmaChan → DmaChan) (j : BusId) : (s.modChan c f).bus j = s.bus j := rfl
@[simp] theorem State.logDma_bus (s : State) (x : DmaCall) (j : BusId) : (s.logDma x).bus j = s.bus j := rfl
@[simp] theorem State.logDma_chan (s : State) (x : DmaCall) (k : Chan) : (s.logDma x).chan k = s.chan k := rfl
@[simp] theorem State.store_bus (s : State) (a : Word) (b : Byte) (j : BusId) : (s.store a b).bus j = s.bus j := rfl
@[simp] theorem State.store_chan (s : State) (a : Word) (b : Byte) (k : Chan) : (s.store a b).chan k = s.chan k := rfl
@[simp] theorem State.setRetWord_bus (s : State) (v : Word) (j : BusId) : (s.setRetWord v).bus j = s.bus j := rfl
@[simp] theorem State.setRetWord_chan (s : State) (v : Word) (k : Chan) : (s.setRetWord v).chan k = s.chan k := rfl
@[simp] theorem State.setRet_bus (s : State) (r : Result) (j : BusId) : (s.setRet r).bus j = s.bus j := rfl
@[simp] theorem State.setRet_chan (s : State) (r : Result) (k : Chan) : (s.setRet r).chan k = s.chan k := rfl
@[simp] theorem State.giveOut0_params (s : State) (i : BusId) (v : Word) : (s.giveOut0 i v).params = s.params := rfl
@[simp] theorem State.giveOut0_dma (s : State) (i : BusId) (v : Word) : (s.giveOut0 i v).dma = s.dma := rfl
@[simp] theorem State.giveOut0_dmatrace (s : State) (i : BusId) (v : Word) : (s.giveOut0 i v).dmatrace = s.dmatrace := rfl
@[simp] theorem State.giveOut0_mem (s : State) (i : BusId) (v : Word) : (s.giveOut0 i v).mem = s.mem := rfl
@[simp] theorem State.giveOut0_env (s : State) (i : BusId) (v : Word) : (s.giveOut0 i v).env = s.env := rfl
@[simp] theorem State.giveOut0_port (s : State) (i : BusId) (v : Word) :
    (s.giveOut0 i v).port = { s.port with out0 := v } := rfl
@[simp] theorem State.giveOut0_chan (s : State) (i : BusId) (v : Word) (k : Chan) :
    (s.giveOut0 i v).chan k = s.chan k := rfl
@[simp] theorem State.setOut0_bus (s : State) (v : Word) (j : BusId) : (s.setOut0 v).bus j = s.bus j := rfl
@[simp] theorem State.setOut0_chan (s : State) (v : Word) (k : Chan) : (s.setOut0 v).chan k = s.chan k := rfl
@[simp] theorem State.setRdata_bus (s : State) (v : Word) (j : BusId) : (s.setRdata v).bus j = s.bus j := rfl
@[simp] theorem State.setRdata_chan (s : State) (v : Word) (k : Chan) : (s.setRdata v).chan k = s.chan k := rfl
@[simp] theorem State.setPort_bus (s : State) (p : Port) (j : BusId) : (s.setPort p).bus j = s.bus j := rfl
@[simp] theorem State.setPort_chan (s : State) (p : Port) (k : Chan) : (s.setPort p).chan k = s.chan k := rfl
@[simp] theorem State.withInputs_bus (s : State) (l : List Input) (j : BusId) : (s.withInputs l).bus j = s.bus j := rfl
@[simp] theorem State.withInputs_chan (s : State) (l : List Input) (k : Chan) : (s.withInputs l).chan k = s.chan k := rfl

@[simp] theorem State.setRetWord_cmd (s : State) (v : Word) : (s.setRetWord v).port.cmd = s.port.cmd := rfl
@[simp] theorem State.setRet_cmd (s : State) (r : Result) : (s.setRet r).port.cmd = s.port.cmd := rfl
@[simp] theorem State.setOut0_cmd (s : State) (v : Word) : (s.setOut0 v).port.cmd = s.port.cmd := rfl
@[simp] theorem State.setRetWord_arg0 (s : State) (v : Word) : (s.setRetWord v).port.arg0 = s.port.arg0 := rfl
@[simp] theorem State.setRet_arg0 (s : State) (r : Result) : (s.setRet r).port.arg0 = s.port.arg0 := rfl
@[simp] theorem State.setOut0_arg0 (s : State) (v : Word) : (s.setOut0 v).port.arg0 = s.port.arg0 := rfl
@[simp] theorem State.setRetWord_arg1 (s : State) (v : Word) : (s.setRetWord v).port.arg1 = s.port.arg1 := rfl
@[simp] theorem State.setRet_arg1 (s : State) (r : Result) : (s.setRet r).port.arg1 = s.port.arg1 := rfl
@[simp] theorem State.setOut0_arg1 (s : State) (v : Word) : (s.setOut0 v).port.arg1 = s.port.arg1 := rfl
@[simp] theorem State.setRetWord_arg2 (s : State) (v : Word) : (s.setRetWord v).port.arg2 = s.port.arg2 := rfl
@[simp] theorem State.setRet_arg2 (s : State) (r : Result) : (s.setRet r).port.arg2 = s.port.arg2 := rfl
@[simp] theorem State.setOut0_arg2 (s : State) (v : Word) : (s.setOut0 v).port.arg2 = s.port.arg2 := rfl
@[simp] theorem State.setRetWord_rdata (s : State) (v : Word) : (s.setRetWord v).port.rdata = s.port.rdata := rfl
@[simp] theorem State.setRet_rdata (s : State) (r : Result) : (s.setRet r).port.rdata = s.port.rdata := rfl
@[simp] theorem State.setOut0_rdata (s : State) (v : Word) : (s.setOut0 v).port.rdata = s.port.rdata := rfl
@[simp] theorem State.setRetWord_ret (s : State) (v : Word) : (s.setRetWord v).port.ret = v := rfl
@[simp] theorem State.setRetWord_out0 (s : State) (v : Word) : (s.setRetWord v).port.out0 = s.port.out0 := rfl
@[simp] theorem State.setRet_ret (s : State) (r : Result) : (s.setRet r).port.ret = r.code := rfl
@[simp] theorem State.setRet_out0 (s : State) (r : Result) : (s.setRet r).port.out0 = s.port.out0 := rfl
@[simp] theorem State.setOut0_ret (s : State) (v : Word) : (s.setOut0 v).port.ret = s.port.ret := rfl
@[simp] theorem State.setOut0_out0 (s : State) (v : Word) : (s.setOut0 v).port.out0 = v := rfl
@[simp] theorem State.setPort_port (s : State) (p : Port) : (s.setPort p).port = p := rfl
@[simp] theorem State.withInputs_inputs (s : State) (l : List Input) : (s.withInputs l).env.inputs = l := rfl
@[simp] theorem State.store_mem (s : State) (a : Word) (b : Byte) : (s.store a b).mem = memWrite s.mem a.toNat b := rfl
@[simp] theorem State.logDma_dmatrace (s : State) (x : DmaCall) : (s.logDma x).dmatrace = s.dmatrace ++ [x] := rfl

/-! ## One instance, one channel -/

theorem State.core_eq (s : State) (i : BusId) : s.core i = (s.bus i).core := rfl
theorem State.m_eq (s : State) (i : BusId) : s.m i = (s.bus i).m := rfl
theorem State.s_eq (s : State) (i : BusId) : s.s i = (s.bus i).s := rfl
theorem State.ctx_eq (s : State) (i : BusId) : s.ctx i = (s.bus i).ctx := rfl

theorem State.setBus_bus (s : State) (i j : BusId) (b : Bus) :
    (s.setBus i b).bus j = if j = i then b else s.bus j := by
  simp only [State.bus, State.setBus, Vector.getElem_set, Fin.ext_iff, eq_comm]

@[simp] theorem State.setBus_bus_same (s : State) (i : BusId) (b : Bus) : (s.setBus i b).bus i = b := by
  simp [State.setBus_bus]

theorem State.modBus_bus (s : State) (i j : BusId) (f : Bus → Bus) :
    (s.modBus i f).bus j = if j = i then f (s.bus i) else s.bus j := State.setBus_bus s i j _

@[simp] theorem State.modBus_bus_same (s : State) (i : BusId) (f : Bus → Bus) : (s.modBus i f).bus i = f (s.bus i) := by
  simp [State.modBus_bus]

@[simp] theorem State.modBus_bus_ne (s : State) {i j : BusId} (f : Bus → Bus) (h : j ≠ i) :
    (s.modBus i f).bus j = s.bus j := by
  simp [State.modBus_bus, h]

theorem State.setChan_chan (s : State) (c k : Chan) (d : DmaChan) :
    (s.setChan c d).chan k = if k = c then d else s.chan k := by
  simp only [State.chan, State.setChan, Vector.getElem_set, Fin.ext_iff, eq_comm]

theorem State.modChan_chan (s : State) (c k : Chan) (f : DmaChan → DmaChan) :
    (s.modChan c f).chan k = if k = c then f (s.chan c) else s.chan k := State.setChan_chan s c k _

@[simp] theorem State.modChan_chan_same (s : State) (c : Chan) (f : DmaChan → DmaChan) :
    (s.modChan c f).chan c = f (s.chan c) := by
  simp [State.modChan_chan]

@[simp] theorem State.modChan_chan_ne (s : State) {c k : Chan} (f : DmaChan → DmaChan) (h : k ≠ c) :
    (s.modChan c f).chan k = s.chan k := by
  simp [State.modChan_chan, h]

@[simp] theorem State.modCore_bus_same (s : State) (i : BusId) (f : BusCore → BusCore) : (s.modCore i f).bus i = (s.bus i).modCore f := State.modBus_bus_same s i _
@[simp] theorem State.modCore_bus_ne (s : State) {i j : BusId} (f : BusCore → BusCore) (h : j ≠ i) : (s.modCore i f).bus j = s.bus j := State.modBus_bus_ne s _ h
@[simp] theorem State.modM_bus_same (s : State) (i : BusId) (f : MCtx → MCtx) : (s.modM i f).bus i = (s.bus i).modM f := State.modBus_bus_same s i _
@[simp] theorem State.modM_bus_ne (s : State) {i j : BusId} (f : MCtx → MCtx) (h : j ≠ i) : (s.modM i f).bus j = s.bus j := State.modBus_bus_ne s _ h
@[simp] theorem State.modS_bus_same (s : State) (i : BusId) (f : SCtx → SCtx) : (s.modS i f).bus i = (s.bus i).modS f := State.modBus_bus_same s i _
@[simp] theorem State.modS_bus_ne (s : State) {i j : BusId} (f : SCtx → SCtx) (h : j ≠ i) : (s.modS i f).bus j = s.bus j := State.modBus_bus_ne s _ h
@[simp] theorem State.modMX_bus_same (s : State) (i : BusId) (f : Xfer → Xfer) : (s.modMX i f).bus i = (s.bus i).modM (·.modX f) := State.modBus_bus_same s i _
@[simp] theorem State.modMX_bus_ne (s : State) {i j : BusId} (f : Xfer → Xfer) (h : j ≠ i) : (s.modMX i f).bus j = s.bus j := State.modBus_bus_ne s _ h
@[simp] theorem State.modSX_bus_same (s : State) (i : BusId) (f : Xfer → Xfer) : (s.modSX i f).bus i = (s.bus i).modS (·.modX f) := State.modBus_bus_same s i _
@[simp] theorem State.modSX_bus_ne (s : State) {i j : BusId} (f : Xfer → Xfer) (h : j ≠ i) : (s.modSX i f).bus j = s.bus j := State.modBus_bus_ne s _ h
@[simp] theorem State.modCtx_bus_same (s : State) (i : BusId) (f : Xfer → Xfer) : (s.modCtx i f).bus i = (s.bus i).modCtx f := State.modBus_bus_same s i _
@[simp] theorem State.modCtx_bus_ne (s : State) {i j : BusId} (f : Xfer → Xfer) (h : j ≠ i) : (s.modCtx i f).bus j = s.bus j := State.modBus_bus_ne s _ h
@[simp] theorem State.setPhase_bus_same (s : State) (i : BusId) (f : Phase) : (s.setPhase i f).bus i = (s.bus i).setPhase f := State.modBus_bus_same s i _
@[simp] theorem State.setPhase_bus_ne (s : State) {i j : BusId} (f : Phase) (h : j ≠ i) : (s.setPhase i f).bus j = s.bus j := State.modBus_bus_ne s _ h
@[simp] theorem State.busStep_bus_same (s : State) (i : BusId) (f : BusDraw) : (s.busStep i f).bus i = (s.bus i).busStep f := State.modBus_bus_same s i _
@[simp] theorem State.busStep_bus_ne (s : State) {i j : BusId} (f : BusDraw) (h : j ≠ i) : (s.busStep i f).bus j = s.bus j := State.modBus_bus_ne s _ h
@[simp] theorem State.notify_bus_same (s : State) (i : BusId) (e : Event) : (s.notify i e).bus i = (s.bus i).notify i e := State.modBus_bus_same s i _
@[simp] theorem State.notify_bus_ne (s : State) {i j : BusId} (e : Event) (h : j ≠ i) : (s.notify i e).bus j = s.bus j := State.modBus_bus_ne s _ h

/-! ## The record of one instance -/

@[simp] theorem Bus.modCore_role (b : Bus) (f : BusCore → BusCore) : (b.modCore f).role = b.role := rfl
@[simp] theorem Bus.modCore_core (b : Bus) (f : BusCore → BusCore) : (b.modCore f).core = f b.core := rfl
@[simp] theorem Bus.modCore_m (b : Bus) (f : BusCore → BusCore) : (b.modCore f).m = b.m := rfl
@[simp] theorem Bus.modCore_s (b : Bus) (f : BusCore → BusCore) : (b.modCore f).s = b.s := rfl
@[simp] theorem Bus.modCore_phase (b : Bus) (f : BusCore → BusCore) : (b.modCore f).phase = b.phase := rfl
@[simp] theorem Bus.modCore_sem (b : Bus) (f : BusCore → BusCore) : (b.modCore f).sem = b.sem := rfl
@[simp] theorem Bus.modCore_wait (b : Bus) (f : BusCore → BusCore) : (b.modCore f).wait = b.wait := rfl
@[simp] theorem Bus.modCore_clk (b : Bus) (f : BusCore → BusCore) : (b.modCore f).clk = b.clk := rfl
@[simp] theorem Bus.modCore_trace (b : Bus) (f : BusCore → BusCore) : (b.modCore f).trace = b.trace := rfl
@[simp] theorem Bus.modCore_cbtrace (b : Bus) (f : BusCore → BusCore) : (b.modCore f).cbtrace = b.cbtrace := rfl
@[simp] theorem Bus.modM_role (b : Bus) (f : MCtx → MCtx) : (b.modM f).role = b.role := rfl
@[simp] theorem Bus.modM_core (b : Bus) (f : MCtx → MCtx) : (b.modM f).core = b.core := rfl
@[simp] theorem Bus.modM_m (b : Bus) (f : MCtx → MCtx) : (b.modM f).m = f b.m := rfl
@[simp] theorem Bus.modM_s (b : Bus) (f : MCtx → MCtx) : (b.modM f).s = b.s := rfl
@[simp] theorem Bus.modM_phase (b : Bus) (f : MCtx → MCtx) : (b.modM f).phase = b.phase := rfl
@[simp] theorem Bus.modM_sem (b : Bus) (f : MCtx → MCtx) : (b.modM f).sem = b.sem := rfl
@[simp] theorem Bus.modM_wait (b : Bus) (f : MCtx → MCtx) : (b.modM f).wait = b.wait := rfl
@[simp] theorem Bus.modM_clk (b : Bus) (f : MCtx → MCtx) : (b.modM f).clk = b.clk := rfl
@[simp] theorem Bus.modM_trace (b : Bus) (f : MCtx → MCtx) : (b.modM f).trace = b.trace := rfl
@[simp] theorem Bus.modM_cbtrace (b : Bus) (f : MCtx → MCtx) : (b.modM f).cbtrace = b.cbtrace := rfl
@[simp] theorem Bus.modS_role (b : Bus) (f : SCtx → SCtx) : (b.modS f).role = b.role := rfl
@[simp] theorem Bus.modS_core (b : Bus) (f : SCtx → SCtx) : (b.modS f).core = b.core := rfl
@[simp] theorem Bus.modS_m (b : Bus) (f : SCtx → SCtx) : (b.modS f).m = b.m := rfl
@[simp] theorem Bus.modS_s (b : Bus) (f : SCtx → SCtx) : (b.modS f).s = f b.s := rfl
@[simp] theorem Bus.modS_phase (b : Bus) (f : SCtx → SCtx) : (b.modS f).phase = b.phase := rfl
@[simp] theorem Bus.modS_sem (b : Bus) (f : SCtx → SCtx) : (b.modS f).sem = b.sem := rfl
@[simp] theorem Bus.modS_wait (b : Bus) (f : SCtx → SCtx) : (b.modS f).wait = b.wait := rfl
@[simp] theorem Bus.modS_clk (b : Bus) (f : SCtx → SCtx) : (b.modS f).clk = b.clk := rfl
@[simp] theorem Bus.modS_trace (b : Bus) (f : SCtx → SCtx) : (b.modS f).trace = b.trace := rfl
@[simp] theorem Bus.modS_cbtrace (b : Bus) (f : SCtx → SCtx) : (b.modS f).cbtrace = b.cbtrace := rfl
@[simp] theorem Bus.setPhase_role (b : Bus) (p : Phase) : (b.setPhase p).role = b.role := rfl
@[simp] theorem Bus.setPhase_core (b : Bus) (p : Phase) : (b.setPhase p).core = b.core := rfl
@[simp] theorem Bus.setPhase_m (b : Bus) (p : Phase) : (b.setPhase p).m = b.m := rfl
@[simp] theorem Bus.setPhase_s (b : Bus) (p : Phase) : (b.setPhase p).s = b.s := rfl
@[simp] theorem Bus.setPhase_phase (b : Bus) (p : Phase) : (b.setPhase p).phase = p := rfl
@[simp] theorem Bus.setPhase_sem (b : Bus) (p : Phase) : (b.setPhase p).sem = b.sem := rfl
@[simp] theorem Bus.setPhase_wait (b : Bus) (p : Phase) : (b.setPhase p).wait = b.wait := rfl
@[simp] theorem Bus.setPhase_clk (b : Bus) (p : Phase) : (b.setPhase p).clk = b.clk := rfl
@[simp] theorem Bus.setPhase_trace (b : Bus) (p : Phase) : (b.setPhase p).trace = b.trace := rfl
@[simp] theorem Bus.setPhase_cbtrace (b : Bus) (p : Phase) : (b.setPhase p).cbtrace = b.cbtrace := rfl
@[simp] theorem Bus.emit_role (b : Bus) (y : Sym) : (b.emit y).role = b.role := rfl
@[simp] theorem Bus.emit_core (b : Bus) (y : Sym) : (b.emit y).core = b.core := rfl
@[simp] theorem Bus.emit_m (b : Bus) (y : Sym) : (b.emit y).m = b.m := rfl
@[simp] theorem Bus.emit_s (b : Bus) (y : Sym) : (b.emit y).s = b.s := rfl
@[simp] theorem Bus.emit_phase (b : Bus) (y : Sym) : (b.emit y).phase = b.phase := rfl
@[simp] theorem Bus.emit_sem (b : Bus) (y : Sym) : (b.emit y).sem = b.sem := rfl
@[simp] theorem Bus.emit_wait (b : Bus) (y : Sym) : (b.emit y).wait = b.wait := rfl
@[simp] theorem Bus.emit_clk (b : Bus) (y : Sym) : (b.emit y).clk = b.clk := rfl
@[simp] theorem Bus.emit_trace (b : Bus) (y : Sym) : (b.emit y).trace = b.trace ++ [y] := rfl
@[simp] theorem Bus.emit_cbtrace (b : Bus) (y : Sym) : (b.emit y).cbtrace = b.cbtrace := rfl
@[simp] theorem Bus.semPost_role (b : Bus) : (b.semPost).role = b.role := rfl
@[simp] theorem Bus.semPost_core (b : Bus) : (b.semPost).core = b.core := rfl
@[simp] theorem Bus.semPost_m (b : Bus) : (b.semPost).m = b.m := rfl
@[simp] theorem Bus.semPost_s (b : Bus) : (b.semPost).s = b.s := rfl
@[simp] theorem Bus.semPost_phase (b : Bus) : (b.semPost).phase = b.phase := rfl
@[simp] theorem Bus.semPost_sem (b : Bus) : (b.semPost).sem = b.sem + 1 := rfl
@[simp] theorem Bus.semPost_wait (b : Bus) : (b.semPost).wait = b.wait := rfl
@[simp] theorem Bus.semPost_clk (b : Bus) : (b.semPost).clk = b.clk := rfl
@[simp] theorem Bus.semPost_trace (b : Bus) : (b.semPost).trace = b.trace := rfl
@[simp] theorem Bus.semPost_cbtrace (b : Bus) : (b.semPost).cbtrace = b.cbtrace := rfl
@[simp] theorem Bus.semClear_role (b : Bus) : (b.semClear).role = b.role := rfl
@[simp] theorem Bus.semClear_core (b : Bus) : (b.semClear).core = b.core := rfl
@[simp] theorem Bus.semClear_m (b : Bus) : (b.semClear).m = b.m := rfl
@[simp] theorem Bus.semClear_s (b : Bus) : (b.semClear).s = b.s := rfl
@[simp] theorem Bus.semClear_phase (b : Bus) : (b.semClear).phase = b.phase := rfl
@[simp] theorem Bus.semClear_sem (b : Bus) : (b.semClear).sem = 0 := rfl
@[simp] theorem Bus.semClear_wait (b : Bus) : (b.semClear).wait = b.wait := rfl
@[simp] theorem Bus.semClear_clk (b : Bus) : (b.semClear).clk = b.clk := rfl
@[simp] theorem Bus.semClear_trace (b : Bus) : (b.semClear).trace = b.trace := rfl
@[simp] theorem Bus.semClear_cbtrace (b : Bus) : (b.semClear).cbtrace = b.cbtrace := rfl
@[simp] theorem Bus.modCtx_role (b : Bus) (f : Xfer → Xfer) : (b.modCtx f).role = b.role := by unfold Bus.modCtx; split <;> rfl
@[simp] theorem Bus.modCtx_core (b : Bus) (f : Xfer → Xfer) : (b.modCtx f).core = b.core := by unfold Bus.modCtx; split <;> rfl
@[simp] theorem Bus.modCtx_phase (b : Bus) (f : Xfer → Xfer) : (b.modCtx f).phase = b.phase := by unfold Bus.modCtx; split <;> rfl
@[simp] theorem Bus.modCtx_sem (b : Bus) (f : Xfer → Xfer) : (b.modCtx f).sem = b.sem := by unfold Bus.modCtx; split <;> rfl
@[simp] theorem Bus.modCtx_wait (b : Bus) (f : Xfer → Xfer) : (b.modCtx f).wait = b.wait := by unfold Bus.modCtx; split <;> rfl
@[simp] theorem Bus.modCtx_clk (b : Bus) (f : Xfer → Xfer) : (b.modCtx f).clk = b.clk := by unfold Bus.modCtx; split <;> rfl
@[simp] theorem Bus.modCtx_trace (b : Bus) (f : Xfer → Xfer) : (b.modCtx f).trace = b.trace := by unfold Bus.modCtx; split <;> rfl
@[simp] theorem Bus.modCtx_cbtrace (b : Bus) (f : Xfer → Xfer) : (b.modCtx f).cbtrace = b.cbtrace := by unfold Bus.modCtx; split <;> rfl
@[simp] theorem Bus.notify_role (b : Bus) (i : BusId) (e : Event) : (b.notify i e).role = b.role := by unfold Bus.notify; split <;> rfl
@[simp] theorem Bus.notify_core (b : Bus) (i : BusId) (e : Event) : (b.notify i e).core = b.core := by unfold Bus.notify; split <;> rfl
@[simp] theorem Bus.notify_m (b : Bus) (i : BusId) (e : Event) : (b.notify i e).m = b.m := by unfold Bus.notify; split <;> rfl
@[simp] theorem Bus.notify_s (b : Bus) (i : BusId) (e : Event) : (b.notify i e).s = b.s := by unfold Bus.notify; split <;> rfl
@[simp] theorem Bus.notify_phase (b : Bus) (i : BusId) (e : Event) : (b.notify i e).phase = b.phase := by unfold Bus.notify; split <;> rfl
@[simp] theorem Bus.notify_sem (b : Bus) (i : BusId) (e : Event) : (b.notify i e).sem = b.sem := by unfold Bus.notify; split <;> rfl
@[simp] theorem Bus.notify_wait (b : Bus) (i : BusId) (e : Event) : (b.notify i e).wait = b.wait := by unfold Bus.notify; split <;> rfl
@[simp] theorem Bus.notify_clk (b : Bus) (i : BusId) (e : Event) : (b.notify i e).clk = b.clk := by unfold Bus.notify; split <;> rfl
@[simp] theorem Bus.notify_trace (b : Bus) (i : BusId) (e : Event) : (b.notify i e).trace = b.trace := by unfold Bus.notify; split <;> rfl
@[simp] theorem Bus.postM_role (b : Bus) : b.postM.role = b.role := by unfold Bus.postM; split <;> rfl
@[simp] theorem Bus.postS_role (b : Bus) : b.postS.role = b.role := by unfold Bus.postS; split <;> rfl
@[simp] theorem Bus.postM_core (b : Bus) : b.postM.core = b.core := by unfold Bus.postM; split <;> rfl
@[simp] theorem Bus.postS_core (b : Bus) : b.postS.core = b.core := by unfold Bus.postS; split <;> rfl
@[simp] theorem Bus.postM_m (b : Bus) : b.postM.m = b.m := by unfold Bus.postM; split <;> rfl
@[simp] theorem Bus.postS_m (b : Bus) : b.postS.m = b.m := by unfold Bus.postS; split <;> rfl
@[simp] theorem Bus.postM_s (b : Bus) : b.postM.s = b.s := by unfold Bus.postM; split <;> rfl
@[simp] theorem Bus.postS_s (b : Bus) : b.postS.s = b.s := by unfold Bus.postS; split <;> rfl
@[simp] theorem Bus.postM_phase (b : Bus) : b.postM.phase = b.phase := by unfold Bus.postM; split <;> rfl
@[simp] theorem Bus.postS_phase (b : Bus) : b.postS.phase = b.phase := by unfold Bus.postS; split <;> rfl
@[simp] theorem Bus.postM_wait (b : Bus) : b.postM.wait = b.wait := by unfold Bus.postM; split <;> rfl
@[simp] theorem Bus.postS_wait (b : Bus) : b.postS.wait = b.wait := by unfold Bus.postS; split <;> rfl
@[simp] theorem Bus.postM_clk (b : Bus) : b.postM.clk = b.clk := by unfold Bus.postM; split <;> rfl
@[simp] theorem Bus.postS_clk (b : Bus) : b.postS.clk = b.clk := by unfold Bus.postS; split <;> rfl
@[simp] theorem Bus.postM_trace (b : Bus) : b.postM.trace = b.trace := by unfold Bus.postM; split <;> rfl
@[simp] theorem Bus.postS_trace (b : Bus) : b.postS.trace = b.trace := by unfold Bus.postS; split <;> rfl
@[simp] theorem Bus.postM_cbtrace (b : Bus) : b.postM.cbtrace = b.cbtrace := by unfold Bus.postM; split <;> rfl
@[simp] theorem Bus.postS_cbtrace (b : Bus) : b.postS.cbtrace = b.cbtrace := by unfold Bus.postS; split <;> rfl
theorem Bus.ctx_master (b : Bus) (h : b.role = .master) : b.ctx = b.m.toXfer := by simp [Bus.ctx, h]
theorem Bus.ctx_slave (b : Bus) (h : b.role = .slave) : b.ctx = b.s.toXfer := by simp [Bus.ctx, h]
theorem Bus.modCtx_master (b : Bus) (f : Xfer → Xfer) (h : b.role = .master) : b.modCtx f = b.modM (·.modX f) := by simp [Bus.modCtx, h]
theorem Bus.modCtx_slave (b : Bus) (f : Xfer → Xfer) (h : b.role = .slave) : b.modCtx f = b.modS (·.modX f) := by simp [Bus.modCtx, h]

@[simp] theorem MCtx.modX_slaveAddr (m : MCtx) (f : Xfer → Xfer) : (m.modX f).slaveAddr = m.slaveAddr := rfl
@[simp] theorem MCtx.modX_stopOnCompletion (m : MCtx) (f : Xfer → Xfer) : (m.modX f).stopOnCompletion = m.stopOnCompletion := rfl
@[simp] theorem SCtx.modX_listening (x : SCtx) (f : Xfer → Xfer) : (x.modX f).listening = x.listening := rfl
@[simp] theorem SCtx.modX_inProgress (x : SCtx) (f : Xfer → Xfer) : (x.modX f).inProgress = x.inProgress := rfl
@[simp] theorem SCtx.modX_wakeup (x : SCtx) (f : Xfer → Xfer) : (x.modX f).wakeup = x.wakeup := rfl
@[simp] theorem SCtx.modX_dmaDir (x : SCtx) (f : Xfer → Xfer) : (x.modX f).dmaDir = x.dmaDir := rfl
@[simp] theorem SCtx.modX_curDir (x : SCtx) (f : Xfer → Xfer) : (x.modX f).curDir = x.curDir := rfl
@[simp] theorem SCtx.modX_unsettled (x : SCtx) (f : Xfer → Xfer) : (x.modX f).unsettled = x.unsettled := rfl
@[simp] theorem SCtx.modX_txSet (x : SCtx) (f : Xfer → Xfer) : (x.modX f).txSet = x.txSet := rfl
@[simp] theorem SCtx.modX_rxSet (x : SCtx) (f : Xfer → Xfer) : (x.modX f).rxSet = x.rxSet := rfl
@[simp] theorem MCtx.modX_toXfer (m : MCtx) (f : Xfer → Xfer) : (m.modX f).toXfer = f m.toXfer := rfl
@[simp] theorem SCtx.modX_toXfer (x : SCtx) (f : Xfer → Xfer) : (x.modX f).toXfer = f x.toXfer := rfl

/-! ## The core -/

@[simp] theorem BusCore.clearFlag_moden (c : BusCore) (f : Sticky) : (c.clearFlag f).moden = c.moden := by cases f <;> rfl
@[simp] theorem BusCore.clearFlag_mstr (c : BusCore) (f : Sticky) : (c.clearFlag f).mstr = c.mstr := by cases f <;> rfl
@[simp] theorem BusCore.clearFlag_wakeen (c : BusCore) (f : Sticky) : (c.clearFlag f).wakeen = c.wakeen := by cases f <;> rfl
@[simp] theorem BusCore.clearFlag_addr10 (c : BusCore) (f : Sticky) : (c.clearFlag f).addr10 = c.addr10 := by cases f <;> rfl
@[simp] theorem BusCore.clearFlag_data (c : BusCore) (f : Sticky) : (c.clearFlag f).data = c.data := by cases f <;> rfl
@[simp] theorem BusCore.clearFlag_sample (c : BusCore) (f : Sticky) : (c.clearFlag f).sample = c.sample := by cases f <;> rfl
@[simp] theorem BusCore.clearFlag_step (c : BusCore) (f : Sticky) : (c.clearFlag f).step = c.step := by cases f <;> rfl
@[simp] theorem BusCore.clearFlag_busy (c : BusCore) (f : Sticky) : (c.clearFlag f).busy = c.busy := by cases f <;> rfl
@[simp] theorem BusCore.clearFlag_srw (c : BusCore) (f : Sticky) : (c.clearFlag f).srw = c.srw := by cases f <;> rfl
@[simp] theorem BusCore.clearFlag_owner (c : BusCore) (f : Sticky) : (c.clearFlag f).owner = c.owner := by cases f <;> rfl
@[simp] theorem BusCore.clearFlag_ownaddr (c : BusCore) (f : Sticky) : (c.clearFlag f).ownaddr = c.ownaddr := by cases f <;> rfl
@[simp] theorem BusCore.clearFlag_pend (c : BusCore) (f : Sticky) : (c.clearFlag f).pend = c.pend := by cases f <;> rfl
@[simp] theorem BusCore.clearFlag_sel (c : BusCore) (f : Sticky) : (c.clearFlag f).sel = c.sel := by cases f <;> rfl
@[simp] theorem BusCore.clearFlag_sel10 (c : BusCore) (f : Sticky) : (c.clearFlag f).sel10 = c.sel10 := by cases f <;> rfl
@[simp] theorem BusCore.clearFlag_dir (c : BusCore) (f : Sticky) : (c.clearFlag f).dir = c.dir := by cases f <;> rfl
@[simp] theorem BusCore.clearFlag_acksel (c : BusCore) (f : Sticky) : (c.clearFlag f).acksel = c.acksel := by cases f <;> rfl
@[simp] theorem BusCore.setEnable_moden (c : BusCore) (x : IntSrc) (v : Bool) : (c.setEnable x v).moden = c.moden := by cases x <;> rfl
@[simp] theorem BusCore.setEnable_mstr (c : BusCore) (x : IntSrc) (v : Bool) : (c.setEnable x v).mstr = c.mstr := by cases x <;> rfl
@[simp] theorem BusCore.setEnable_wakeen (c : BusCore) (x : IntSrc) (v : Bool) : (c.setEnable x v).wakeen = c.wakeen := by cases x <;> rfl
@[simp] theorem BusCore.setEnable_addr10 (c : BusCore) (x : IntSrc) (v : Bool) : (c.setEnable x v).addr10 = c.addr10 := by cases x <;> rfl
@[simp] theorem BusCore.setEnable_data (c : BusCore) (x : IntSrc) (v : Bool) : (c.setEnable x v).data = c.data := by cases x <;> rfl
@[simp] theorem BusCore.setEnable_sample (c : BusCore) (x : IntSrc) (v : Bool) : (c.setEnable x v).sample = c.sample := by cases x <;> rfl
@[simp] theorem BusCore.setEnable_step (c : BusCore) (x : IntSrc) (v : Bool) : (c.setEnable x v).step = c.step := by cases x <;> rfl
@[simp] theorem BusCore.setEnable_busy (c : BusCore) (x : IntSrc) (v : Bool) : (c.setEnable x v).busy = c.busy := by cases x <;> rfl
@[simp] theorem BusCore.setEnable_srw (c : BusCore) (x : IntSrc) (v : Bool) : (c.setEnable x v).srw = c.srw := by cases x <;> rfl
@[simp] theorem BusCore.setEnable_owner (c : BusCore) (x : IntSrc) (v : Bool) : (c.setEnable x v).owner = c.owner := by cases x <;> rfl
@[simp] theorem BusCore.setEnable_ownaddr (c : BusCore) (x : IntSrc) (v : Bool) : (c.setEnable x v).ownaddr = c.ownaddr := by cases x <;> rfl
@[simp] theorem BusCore.setEnable_pend (c : BusCore) (x : IntSrc) (v : Bool) : (c.setEnable x v).pend = c.pend := by cases x <;> rfl
@[simp] theorem BusCore.setEnable_sel (c : BusCore) (x : IntSrc) (v : Bool) : (c.setEnable x v).sel = c.sel := by cases x <;> rfl
@[simp] theorem BusCore.setEnable_sel10 (c : BusCore) (x : IntSrc) (v : Bool) : (c.setEnable x v).sel10 = c.sel10 := by cases x <;> rfl
@[simp] theorem BusCore.setEnable_dir (c : BusCore) (x : IntSrc) (v : Bool) : (c.setEnable x v).dir = c.dir := by cases x <;> rfl
@[simp] theorem BusCore.setEnable_acksel (c : BusCore) (x : IntSrc) (v : Bool) : (c.setEnable x v).acksel = c.acksel := by cases x <;> rfl
@[simp] theorem BusCore.setDmareq_moden (c : BusCore) (d : Dir) (v : Bool) : (c.setDmareq d v).moden = c.moden := by cases d <;> rfl
@[simp] theorem BusCore.setDmareq_mstr (c : BusCore) (d : Dir) (v : Bool) : (c.setDmareq d v).mstr = c.mstr := by cases d <;> rfl
@[simp] theorem BusCore.setDmareq_wakeen (c : BusCore) (d : Dir) (v : Bool) : (c.setDmareq d v).wakeen = c.wakeen := by cases d <;> rfl
@[simp] theorem BusCore.setDmareq_addr10 (c : BusCore) (d : Dir) (v : Bool) : (c.setDmareq d v).addr10 = c.addr10 := by cases d <;> rfl
@[simp] theorem BusCore.setDmareq_data (c : BusCore) (d : Dir) (v : Bool) : (c.setDmareq d v).data = c.data := by cases d <;> rfl
@[simp] theorem BusCore.setDmareq_sample (c : BusCore) (d : Dir) (v : Bool) : (c.setDmareq d v).sample = c.sample := by cases d <;> rfl
@[simp] theorem BusCore.setDmareq_step (c : BusCore) (d : Dir) (v : Bool) : (c.setDmareq d v).step = c.step := by cases d <;> rfl
@[simp] theorem BusCore.setDmareq_busy (c : BusCore) (d : Dir) (v : Bool) : (c.setDmareq d v).busy = c.busy := by cases d <;> rfl
@[simp] theorem BusCore.setDmareq_srw (c : BusCore) (d : Dir) (v : Bool) : (c.setDmareq d v).srw = c.srw := by cases d <;> rfl
@[simp] theorem BusCore.setDmareq_owner (c : BusCore) (d : Dir) (v : Bool) : (c.setDmareq d v).owner = c.owner := by cases d <;> rfl
@[simp] theorem BusCore.setDmareq_ownaddr (c : BusCore) (d : Dir) (v : Bool) : (c.setDmareq d v).ownaddr = c.ownaddr := by cases d <;> rfl
@[simp] theorem BusCore.setDmareq_pend (c : BusCore) (d : Dir) (v : Bool) : (c.setDmareq d v).pend = c.pend := by cases d <;> rfl
@[simp] theorem BusCore.setDmareq_sel (c : BusCore) (d : Dir) (v : Bool) : (c.setDmareq d v).sel = c.sel := by cases d <;> rfl
@[simp] theorem BusCore.setDmareq_sel10 (c : BusCore) (d : Dir) (v : Bool) : (c.setDmareq d v).sel10 = c.sel10 := by cases d <;> rfl
@[simp] theorem BusCore.setDmareq_dir (c : BusCore) (d : Dir) (v : Bool) : (c.setDmareq d v).dir = c.dir := by cases d <;> rfl
@[simp] theorem BusCore.setDmareq_acksel (c : BusCore) (d : Dir) (v : Bool) : (c.setDmareq d v).acksel = c.acksel := by cases d <;> rfl
@[simp] theorem BusCore.setEnable_startf (c : BusCore) (x : IntSrc) (v : Bool) : (c.setEnable x v).startf = c.startf := by cases x <;> rfl
@[simp] theorem BusCore.setDmareq_startf (c : BusCore) (d : Dir) (v : Bool) : (c.setDmareq d v).startf = c.startf := by cases d <;> rfl
@[simp] theorem BusCore.setEnable_bnd (c : BusCore) (x : IntSrc) (v : Bool) : (c.setEnable x v).bnd = c.bnd := by cases x <;> rfl
@[simp] theorem BusCore.setDmareq_bnd (c : BusCore) (d : Dir) (v : Bool) : (c.setDmareq d v).bnd = c.bnd := by cases d <;> rfl
@[simp] theorem BusCore.setEnable_rxnack (c : BusCore) (x : IntSrc) (v : Bool) : (c.setEnable x v).rxnack = c.rxnack := by cases x <;> rfl
@[simp] theorem BusCore.setDmareq_rxnack (c : BusCore) (d : Dir) (v : Bool) : (c.setDmareq d v).rxnack = c.rxnack := by cases d <;> rfl
@[simp] theorem BusCore.setEnable_arblost (c : BusCore) (x : IntSrc) (v : Bool) : (c.setEnable x v).arblost = c.arblost := by cases x <;> rfl
@[simp] theorem BusCore.setDmareq_arblost (c : BusCore) (d : Dir) (v : Bool) : (c.setDmareq d v).arblost = c.arblost := by cases d <;> rfl
@[simp] theorem BusCore.setEnable_addrmatch (c : BusCore) (x : IntSrc) (v : Bool) : (c.setEnable x v).addrmatch = c.addrmatch := by cases x <;> rfl
@[simp] theorem BusCore.setDmareq_addrmatch (c : BusCore) (d : Dir) (v : Bool) : (c.setDmareq d v).addrmatch = c.addrmatch := by cases d <;> rfl
@[simp] theorem BusCore.setEnable_stopf (c : BusCore) (x : IntSrc) (v : Bool) : (c.setEnable x v).stopf = c.stopf := by cases x <;> rfl
@[simp] theorem BusCore.setDmareq_stopf (c : BusCore) (d : Dir) (v : Bool) : (c.setDmareq d v).stopf = c.stopf := by cases d <;> rfl

/-! ## Going on from an outcome -/

@[simp] theorem Res.bind_next (s : State) (f : State → Res) : Res.bind (.next s) f = f s := rfl
@[simp] theorem Res.bind_fault (e : Fault) (f : State → Res) : Res.bind (.fault e) f = .fault e := rfl
@[simp] theorem Res.bind_refused (e : Refusal) (f : State → Res) : Res.bind (.refused e) f = .refused e := rfl

/-- A bind answers a next state only through a next state. -/
theorem Res.bind_eq_next {r : Res} {f : State → Res} {t : State} (h : r.bind f = .next t) :
    ∃ u, r = .next u ∧ f u = .next t := by
  cases r with
  | next u => exact ⟨u, rfl, h⟩
  | fault e => cases h
  | refused e => cases h

end Sys2Proof.Machine
end

