-- ==== Sys2Proof/Laws/Admission.lean ====
section
/-! SUPPORT. Laws/Admission.lean: what the tests shared by the commands can answer (30_encoding.md R104, R225, U4). -/

namespace Sys2Proof.Machine

/-- An admitted operation runs. -/
theorem admitted_run {k : OpClass} {i : BusId} {s : State} {f : State → Res} (h : (s.bus i).turnAway k = .none) :
    admitted k i s f = f s := by
  simp only [admitted, h]

/-- All that `admitted` can answer with a next state: the command turned away, or its own effect. -/
theorem admitted_next {k : OpClass} {i : BusId} {s t : State} {f : State → Res} (h : admitted k i s f = .next t) :
    (∃ r, (s.bus i).turnAway k = .some r ∧ t = s.setRet r) ∨ ((s.bus i).turnAway k = .none ∧ f s = .next t) := by
  unfold admitted at h
  split at h
  · rename_i r hr
    exact .inl ⟨r, hr, (Host.Outcome.next.inj h).symm⟩
  · rename_i hn
    exact .inr ⟨hn, h⟩

/-- All that `withBuffer` can answer with a next state. -/
theorem withBuffer_next {s t : State} {f : Word → Word → Res} (h : withBuffer s f = .next t) :
    t = s.setRet .error ∨ (s.badLen s.port.arg1 = false ∧ f s.port.arg0 s.port.arg1 = .next t) := by
  unfold withBuffer at h
  split at h
  · exact .inl (Host.Outcome.next.inj h).symm
  · rename_i hb
    split at h
    · cases h
    · exact .inr ⟨by simpa using hb, h⟩

/-- A good buffer passes the tests. -/
theorem withBuffer_good {s : State} (h : GoodBuffer s) (f : Word → Word → Res) :
    withBuffer s f = f s.port.arg0 s.port.arg1 := by
  have h1 : s.badLen s.port.arg1 = false := by
    simp only [State.badLen, Bool.or_eq_false_iff, beq_eq_false_iff_ne, decide_eq_false_iff_not, BitVec.not_lt]
    exact ⟨h.pos, h.max⟩
  have h2 : pastEnd s.port.arg0 s.port.arg1 = false := by
    simp only [pastEnd, decide_eq_false_iff_not]
    have := h.fits
    omega
  simp only [withBuffer, h1, h2, Bool.false_eq_true, if_false]

/-- A length that passes the test is not 0. -/
theorem State.badLen_pos {s : State} {len : Word} (h : s.badLen len = false) : len ≠ 0 := by
  simp only [State.badLen, Bool.or_eq_false_iff, beq_eq_false_iff_ne] at h
  exact h.1

/-- R104 for an initialised instance with an idle context and nothing suspended: the role alone decides. -/
theorem Bus.turnAway_idle {b : Bus} {k : OpClass} (hr : b.role ≠ .none) (hw : b.wait = .none) (hi : b.ctx.idle = true)
    (hk : k.roleOk b.role = true) : b.turnAway k = .none := by
  simp [Bus.turnAway, hr, hw, hi, hk]

theorem IdleAt.turnAway {i : BusId} {s : State} (h : IdleAt i s) {k : OpClass} (hk : k.roleOk (s.bus i).role = true) :
    (s.bus i).turnAway k = .none :=
  Bus.turnAway_idle h.role h.wait h.idle hk

theorem IdleMaster.idleAt {i : BusId} {s : State} (h : IdleMaster i s) : IdleAt i s where
  role := by rw [h.role]; decide
  wait := h.wait
  idle := by rw [State.ctx_eq, Bus.ctx_master _ h.role]; exact h.idle

theorem IdleSlave.idleAt {i : BusId} {s : State} (h : IdleSlave i s) : IdleAt i s where
  role := by rw [h.role]; decide
  wait := h.wait
  idle := by rw [State.ctx_eq, Bus.ctx_slave _ h.role]; exact h.idle

/-- R104 for an operation of the right role that neither a suspended command nor a busy context keeps out. -/
theorem Bus.turnAway_any {b : Bus} {k : OpClass} (hr : b.role ≠ .none) (hk : k.roleOk b.role = true)
    (hw : k.whileWaiting = true) (hn : k.needsIdle = false) : b.turnAway k = .none := by
  simp [Bus.turnAway, hr, hk, hw, hn]

/-- An operation that needs an idle context is admitted with one, on an initialised instance. -/
theorem Bus.turnAway_idle_of_none {b : Bus} {k : OpClass} (hn : k.needsIdle = true) (h : b.turnAway k = .none) :
    b.ctx.idle = true := by
  unfold Bus.turnAway at h
  split at h
  · cases h
  · split at h
    · cases h
    · split at h
      · cases h
      · split at h
        · cases h
        · rename_i hx
          simpa [hn] using hx

/-- An admitted operation has its role. -/
theorem Bus.turnAway_role {b : Bus} {k : OpClass} (hk : k ≠ .init) (h : b.turnAway k = .none) :
    b.role ≠ .none ∧ k.roleOk b.role = true := by
  unfold Bus.turnAway at h
  split at h
  · cases h
  · rename_i h1
    have hr : b.role ≠ .none := by simpa [hk] using h1
    split at h
    · cases h
    · rename_i h2
      exact ⟨hr, by simpa [hr] using h2⟩

/-- An operation that a suspended command keeps out finds none suspended. -/
theorem Bus.turnAway_wait {b : Bus} {k : OpClass} (hk : k.whileWaiting = false) (h : b.turnAway k = .none) :
    b.wait = .none := by
  unfold Bus.turnAway at h
  split at h
  · cases h
  · split at h
    · cases h
    · split at h
      · cases h
      · rename_i hx
        simpa [hk] using hx

end Sys2Proof.Machine
end

