-- ==== Sys2Proof/Laws/Core.lean ====
section
/-! SUPPORT. Laws/Core.lean: the changes of a bus core the engine makes, and the ownership invariant (`BusCore.ok`) they
and every bus step keep. -/

namespace Sys2Proof.Machine

/-- The functions with which the engine changes a core: compositions of the primitives and of the few updates of the
lifecycle and the handlers. -/
inductive EngineCore : (BusCore → BusCore) → Prop where
  | comp {f g k : BusCore → BusCore} (hf : EngineCore f) (hg : EngineCore g) (e : ∀ c, k c = g (f c)) : EngineCore k
  | start : EngineCore .start
  | rstart : EngineCore .rstart
  | stop : EngineCore .stop
  | cancel : EngineCore .cancel
  | setDir (d : Dir) : EngineCore (·.setDir d)
  | setAck (a : Ack) : EngineCore (·.setAck a)
  | writeData (b : Byte) : EngineCore (·.writeData b)
  | readData : EngineCore .readData
  | readLast : EngineCore .readLast
  | clearFlag (f : Sticky) : EngineCore (·.clearFlag f)
  | setEnable (x : IntSrc) (v : Bool) : EngineCore (·.setEnable x v)
  | setDmareq (d : Dir) (v : Bool) : EngineCore (·.setDmareq d v)
  | setDiv (a : Byte) (b : BitVec 4) : EngineCore (·.setDiv a b)
  | enable : EngineCore .enable
  | disable : EngineCore .disable
  | dropSlaveFlags : EngineCore .dropSlaveFlags
  | dropMasterFlags : EngineCore .dropMasterFlags
  | ownAddr (a : BitVec 10) (v : Bool) : EngineCore fun c => { c with ownaddr := a, addr10 := v }

/-- Two changes, one after the other. -/
theorem EngineCore.andThen {f g : BusCore → BusCore} (hf : EngineCore f) (hg : EngineCore g) :
    EngineCore fun c => g (f c) := .comp hf hg fun _ => rfl

theorem EngineCore.dmareqOff : EngineCore .dmareqOff :=
  .comp (.setDmareq .tx false) (.setDmareq .rx false) fun _ => rfl

theorem EngineCore.transportArm : EngineCore .transportArm := by
  have h1 := (EngineCore.clearFlag .startf).andThen (.clearFlag .bnd)
  have h2 := (h1.andThen (.clearFlag .rxnack)).andThen (.clearFlag .arblost)
  exact ((h2.andThen (.setEnable .nackie true)).andThen (.setEnable .arbie true)).comp (.setEnable .bndie true)
    fun _ => rfl

theorem EngineCore.transportDisarm : EngineCore .transportDisarm := by
  have h1 := (EngineCore.setEnable .bndie false).andThen (.setEnable .nackie false)
  exact (h1.andThen (.setEnable .arbie false)).comp .dmareqOff fun _ => rfl

theorem EngineCore.slaveArm : EngineCore .slaveArm := by
  have h1 := ((EngineCore.clearFlag .stopf).andThen (.clearFlag .rxnack)).andThen (.clearFlag .bnd)
  have h2 := (h1.andThen (.setEnable .addrie true)).andThen (.setEnable .stopie true)
  exact (h2.andThen (.setEnable .nackie true)).comp (.setEnable .bndie true) fun _ => rfl

theorem EngineCore.slaveDisarm : EngineCore .slaveDisarm := by
  have h1 := (EngineCore.setEnable .addrie false).andThen (.setEnable .stopie false)
  exact ((h1.andThen (.setEnable .nackie false)).andThen (.setEnable .bndie false)).comp .dmareqOff fun _ => rfl

theorem EngineCore.writeDivider (a : Byte) (b : BitVec 4) : EngineCore (·.writeDivider a b) :=
  (EngineCore.disable.andThen (.setDiv a b)).comp .enable fun _ => rfl

/-! ## The ownership invariant -/

theorem BusCore.ok_clearFlag (c : BusCore) (f : Sticky) : (c.clearFlag f).ok = c.ok := by cases f <;> rfl

theorem BusCore.ok_setEnable (c : BusCore) (x : IntSrc) (v : Bool) : (c.setEnable x v).ok = c.ok := by cases x <;> rfl

theorem BusCore.ok_setDmareq (c : BusCore) (d : Dir) (v : Bool) : (c.setDmareq d v).ok = c.ok := by cases d <;> rfl

theorem BusCore.ok_disable (c : BusCore) : c.disable.ok = true := by
  simp [BusCore.ok, BusCore.pendOk, BusCore.disable]

/-- Every change the engine makes keeps the ownership invariant. -/
theorem EngineCore.ok {f : BusCore → BusCore} (hf : EngineCore f) : ∀ c : BusCore, c.ok = true → (f c).ok = true := by
  induction hf with
  | comp _ _ e ihf ihg => exact fun c h => by rw [e]; exact ihg _ (ihf c h)
  | clearFlag f => exact fun c h => (c.ok_clearFlag f).trans h
  | setEnable x v => exact fun c h => (c.ok_setEnable x v).trans h
  | setDmareq d v => exact fun c h => (c.ok_setDmareq d v).trans h
  | disable => exact fun c _ => c.ok_disable
  | start => intro c h; grind [BusCore.ok, BusCore.pendOk, BusCore.start]
  | rstart => intro c h; grind [BusCore.ok, BusCore.pendOk, BusCore.rstart]
  | stop => intro c h; grind [BusCore.ok, BusCore.pendOk, BusCore.stop]
  | cancel => intro c h; grind [BusCore.ok, BusCore.pendOk, BusCore.cancel]
  | setDir d => exact fun c h => h
  | setAck a => exact fun c h => h
  | writeData b => intro c h; grind [BusCore.ok, BusCore.pendOk, BusCore.writeData]
  | readData => intro c h; grind [BusCore.ok, BusCore.pendOk, BusCore.readData]
  | readLast => exact fun c h => h
  | setDiv a b => intro c h; show (c.setDiv a b).ok = true; unfold BusCore.setDiv; split <;> exact h
  | enable => intro c h; grind [BusCore.ok, BusCore.pendOk, BusCore.enable]
  | dropSlaveFlags => exact fun c h => h
  | dropMasterFlags => exact fun c h => h
  | ownAddr a v => exact fun c h => h

/-- A bus step keeps the ownership invariant. -/
theorem Bus.busStep_ok (b : Bus) (d : BusDraw) (h : b.core.ok = true) : (b.busStep d).core.ok = true := by
  unfold Bus.busStep
  split
  · split
    · unfold Bus.remote Bus.addressPhase
      split <;> (repeat' split) <;> grind [BusCore.ok, BusCore.pendOk, Bus.matched, Bus.receiveByte, Bus.remoteStop,
        Bus.modCore, Bus.emit, BusCore.stopOk]
    · split <;> grind [BusCore.ok, BusCore.pendOk, Bus.modCore, Bus.emit]
    · grind [BusCore.ok, BusCore.pendOk, Bus.modCore, Bus.emit]
    · grind [BusCore.ok, BusCore.pendOk, Bus.modCore, Bus.emit]
    · unfold Bus.ownerByte
      (repeat' split) <;> grind [BusCore.ok, BusCore.pendOk, Bus.slaveByte, Bus.remoteStop, Bus.modCore, Bus.emit,
        BusCore.stopOk]
    · split <;> grind [BusCore.ok, BusCore.pendOk, Bus.receiveByte, Bus.modCore, Bus.emit]
  · exact h

end Sys2Proof.Machine
end

