-- ==== Sys2Proof/Laws/Closed.lean ====
section
/-! SUPPORT. Laws/Closed.lean: what is kept by every elementary update of the engine is kept by every operation, event
and step. A claim of the form "no operation changes this" or "every step keeps this" then needs the elementary updates
only. -/

namespace Sys2Proof.Machine

/-- `P` is kept by the updates with which the engine works on instance `i`. -/
structure EngineClosed (i : BusId) (P : State → Prop) : Prop where
  core : ∀ s f, EngineCore f → P s → P (s.modCore i f)
  master : ∀ s f, P s → P (s.modM i f)
  slave : ∀ s f, P s → P (s.modS i f)
  phase : ∀ s p, P s → P (s.setPhase i p)
  sem : ∀ s n, P s → P (s.modBus i fun b => { b with sem := n })
  wait : ∀ s w, P s → P (s.modBus i fun b => { b with wait := w })
  notify : ∀ s e, P s → P (s.notify i e)
  chan : ∀ s c f, P s → P (s.modChan c f)
  log : ∀ s x, P s → P (s.logDma x)
  port : ∀ s p, P s → P (s.setPort p)
  cb : ∀ s, P s → P s.drawCb.2
  free : ∀ s, P s → P s.drawRead.2
  given : ∀ s v, P s → P (s.modBus i fun b => { b with outGiven := v })

/-- `P` is also kept by what the wires do to instance `i` and by the draws of a poll. -/
structure WireClosed (i : BusId) (P : State → Prop) : Prop extends EngineClosed i P where
  step : ∀ s d, P s → P (s.busStep i d)
  draw : ∀ s, P s → P s.drawPoll.2

/-- `P` is kept by writes to buffer memory. -/
def StoreClosed (P : State → Prop) : Prop := ∀ s a b, P s → P (s.store a b)

/-- `P` is kept by what the lifecycle commands do to instance `i`. -/
structure LifeClosed (i : BusId) (P : State → Prop) : Prop where
  init : ∀ s r c (m : Bus → MCtx) (x : Bus → SCtx), r ≠ .none → c.ok = true → (s.bus i).role = .none → P s →
    P (s.modBus i fun b => b.initAs r c (m b) (x b))
  deinit : ∀ s, P s → P (s.modBus i .deinit)

variable {i : BusId} {P : State → Prop} {s : State}

theorem closed_ite {c : Prop} [Decidable c] {a b : State} (ha : P a) (hb : P b) : P (if c then a else b) := by
  split
  · exact ha
  · exact hb

theorem EngineClosed.setRetWord (h : EngineClosed i P) (v : Word) (hs : P s) : P (s.setRetWord v) := h.port s _ hs

theorem EngineClosed.setRet (h : EngineClosed i P) (r : Result) (hs : P s) : P (s.setRet r) := h.port s _ hs

theorem EngineClosed.setOut0 (h : EngineClosed i P) (v : Word) (hs : P s) : P (s.setOut0 v) := h.port s _ hs

theorem EngineClosed.giveOut0 (h : EngineClosed i P) (v : Word) (hs : P s) : P (s.giveOut0 i v) :=
  h.given _ ((s.bus i).outGiven || (s.bus i).wait.isSome) (h.setOut0 v hs)

theorem EngineClosed.modCtx (h : EngineClosed i P) (f : Xfer → Xfer) (hs : P s) : P (s.modCtx i f) := by
  show P (s.setBus i ((s.bus i).modCtx f))
  cases hr : (s.bus i).role with
  | slave => rw [Bus.modCtx_slave _ _ hr]; exact h.slave s _ hs
  | master => rw [Bus.modCtx_master _ _ hr]; exact h.master s _ hs
  | none =>
    have e : (s.bus i).modCtx f = (s.bus i).modM (·.modX f) := by simp [Bus.modCtx, hr]
    rw [e]; exact h.master s _ hs

theorem EngineClosed.postM (h : EngineClosed i P) (hs : P s) : P (s.modBus i .postM) := by
  have e : s.modBus i .postM = s.modBus i fun b => { b with sem := (s.bus i).postM.sem } := by
    unfold State.modBus Bus.postM; split <;> rfl
  rw [e]; exact h.sem s _ hs

theorem EngineClosed.postS (h : EngineClosed i P) (hs : P s) : P (s.modBus i .postS) := by
  have e : s.modBus i .postS = s.modBus i fun b => { b with sem := (s.bus i).postS.sem } := by
    unfold State.modBus Bus.postS; split <;> rfl
  rw [e]; exact h.sem s _ hs

/-! ## The sequencer -/

theorem WireClosed.poll (h : WireClosed i P) (cond : BusCore → Bool) (hs : P s) : P (poll i cond s).2 := by
  have hd := h.draw s hs
  unfold Machine.poll
  split
  · exact hs
  · split
    · exact hs
    · split
      · exact h.core _ _ .cancel hd
      · split
        · exact h.step _ _ hd
        · exact h.core _ _ .cancel hd

theorem WireClosed.seqCondition (h : WireClosed i P) {r : BusCore → BusCore} (hr : EngineCore r)
    (cond : BusCore → Bool) (hs : P s) : P (seqCondition i r cond s).2 := by
  unfold Machine.seqCondition
  have h1 := h.core s _ ((EngineCore.clearFlag .startf).andThen hr) hs
  have h2 := h.poll cond h1
  dsimp only
  split
  · exact h.core _ _ (.clearFlag _) h2
  · exact h2

theorem WireClosed.seqStart (h : WireClosed i P) (hs : P s) : P (seqStart i s).2 := h.seqCondition .start _ hs

theorem WireClosed.seqRstart (h : WireClosed i P) (hs : P s) : P (seqRstart i s).2 := h.seqCondition .rstart _ hs

theorem WireClosed.seqWaitReady (h : WireClosed i P) (hs : P s) : P (seqWaitReady i s).2 := h.poll _ hs

theorem EngineClosed.seqTxDone (h : EngineClosed i P) (ok : Bool) (hs : P s) : P (seqTxDone i ok s).2 := by
  unfold Machine.seqTxDone
  split
  · exact h.core _ _ (.clearFlag _) hs
  · split
    · exact hs
    · split
      · exact h.core _ _ ((EngineCore.clearFlag _).andThen (.clearFlag _)) hs
      · exact h.core _ _ (.clearFlag _) hs

theorem WireClosed.seqTxByte (h : WireClosed i P) (b : Byte) (hs : P s) : P (seqTxByte i b s).2 := by
  unfold Machine.seqTxByte
  have h1 := h.seqWaitReady hs
  dsimp only
  split
  · exact h1
  · exact h.seqTxDone _ (h.poll _ (h.core _ _ (.writeData b) h1))

theorem WireClosed.seqStop (h : WireClosed i P) (hs : P s) : P (seqStop i s).2 := h.poll _ (h.core s _ .stop hs)

theorem seqThen_closed {r : Word × State} {f : State → Word × State} (hr : P r.2) (hf : ∀ t, P t → P (f t).2) :
    P (seqThen r f).2 := by
  unfold seqThen
  split
  · exact hf _ hr
  · exact hr

theorem WireClosed.seqAddressBytes (h : WireClosed i P) (a : BitVec 10) (addr10 : Bool) (d : WireDir) (hs : P s) :
    P (seqAddressBytes i a addr10 d s).2 := by
  unfold Machine.seqAddressBytes
  split
  · exact h.seqTxByte _ hs
  · refine seqThen_closed (seqThen_closed (h.seqTxByte _ hs) fun t => h.seqTxByte _) fun t ht => ?_
    split
    · exact ht
    · exact seqThen_closed (h.seqRstart ht) fun u => h.seqTxByte _

theorem WireClosed.seqAddress (h : WireClosed i P) (d : WireDir) (hs : P s) : P (seqAddress i d s).2 := by
  unfold Machine.seqAddress
  refine seqThen_closed ?_ fun t ht => h.seqAddressBytes _ _ _ (h.core t _ (.setDir .tx) ht)
  split
  · exact h.seqRstart hs
  · exact h.seqStart hs

/-! ## Transport -/

theorem EngineClosed.dmaConfigure (h : EngineClosed i P) (c : Chan) (a b : Endpoint) (n : Word) (d : DmaDir)
    (hs : P s) : P (dmaConfigure c a b n d s) := h.log _ _ (h.chan s c _ hs)

theorem EngineClosed.dmaInstall (h : EngineClosed i P) (c : Chan) (j : BusId) (hs : P s) : P (dmaInstall c j s) :=
  h.log _ _ (h.chan s c _ hs)

theorem EngineClosed.dmaStart (h : EngineClosed i P) (c : Chan) (hs : P s) : P (dmaStart c s) :=
  h.log _ _ (h.chan s c _ hs)

theorem EngineClosed.dmaStop (h : EngineClosed i P) (c : Chan) (hs : P s) : P (dmaStop c s) :=
  h.log _ _ (h.chan s c _ hs)

theorem EngineClosed.dmaStopIf (h : EngineClosed i P) (x : Xfer) (hs : P s) : P (dmaStopIf x s) := by
  unfold Machine.dmaStopIf
  split
  · exact h.dmaStop _ hs
  · exact hs

theorem EngineClosed.dmaBulk (h : EngineClosed i P) (c : Chan) (a b : Endpoint) (n : Word) (d : DmaDir) (r : Dir)
    (hs : P s) : P (dmaBulk i c a b n d r s) := by
  unfold Machine.dmaBulk
  refine h.dmaStart c (h.core _ _ (.setDmareq r true) (h.dmaInstall c i (h.dmaConfigure c a b n d ?_)))
  exact h.core s _ (.setEnable .bndie false) hs

/-! ## Master -/

theorem EngineClosed.masterX (h : EngineClosed i P) (f : Xfer → Xfer) (hs : P s) : P (s.modMX i f) := h.master s _ hs

theorem EngineClosed.slaveX (h : EngineClosed i P) (f : Xfer → Xfer) (hs : P s) : P (s.modSX i f) := h.slave s _ hs

theorem EngineClosed.masterIdle (h : EngineClosed i P) (hs : P s) : P (masterIdle i s) :=
  h.phase _ _ (h.log _ _ (h.masterX _ hs))

theorem EngineClosed.masterClose (h : EngineClosed i P) (r : Result) (hs : P s) : P (masterClose i r s) :=
  h.postM (h.masterIdle (h.masterX _ hs))

theorem WireClosed.masterEndStop (h : WireClosed i P) (hs : P s) : P (masterEndStop i s) := by
  unfold Machine.masterEndStop
  split
  · exact h.masterX _ (h.seqStop (h.phase s _ hs))
  · exact hs

theorem WireClosed.masterEnd (h : WireClosed i P) (hs : P s) : P (masterEnd i s) := by
  unfold Machine.masterEnd
  refine h.notify _ _ (h.postM (h.masterIdle (h.masterX _ (h.masterEndStop ?_))))
  exact h.core s _ .transportDisarm hs

theorem WireClosed.masterErrorExit (h : WireClosed i P) (r : Result) (hs : P s) : P (masterErrorExit i r s) := by
  unfold Machine.masterErrorExit
  have h1 := h.dmaStopIf (s.m i).toXfer (h.core _ _ .transportDisarm (h.phase s .error hs))
  refine h.notify _ _ (h.masterClose r ?_)
  split
  · exact h.seqStop h1
  · exact h1

theorem WireClosed.masterAbort (h : WireClosed i P) (hs : P s) : P (masterAbort i s) := by
  unfold Machine.masterAbort
  have h1 := h.dmaStopIf (s.m i).toXfer (h.core s _ .transportDisarm hs)
  refine h.masterClose _ ?_
  split
  · exact h.seqStop h1
  · exact h1

theorem WireClosed.masterSendStep (h : WireClosed i P) (hs : P s) : P (masterSendStep i s) := by
  unfold Machine.masterSendStep
  split
  · exact h.core _ _ (.writeData _) (h.masterX _ hs)
  · exact h.masterEnd (h.core s _ (.clearFlag .bnd) hs)

theorem EngineClosed.masterStore (h : EngineClosed i P) (hm : StoreClosed P) (b : Byte) (hs : P s) :
    P (masterStore i b s) := h.masterX _ (hm _ _ _ hs)

theorem WireClosed.masterRecvStep (h : WireClosed i P) (hm : StoreClosed P) (hs : P s) : P (masterRecvStep i s) := by
  unfold Machine.masterRecvStep
  dsimp only
  split
  · exact h.masterEnd (h.masterStore hm _ (h.core s _ .readLast hs))
  · exact h.masterStore hm _ (h.core s _ ((EngineCore.setAck _).andThen .readData) hs)

theorem WireClosed.masterKickSend (h : WireClosed i P) (n : Word) (hs : P s) : P (masterKickSend i n s) := by
  unfold Machine.masterKickSend
  refine h.masterSendStep ?_
  split
  · exact h.dmaBulk _ _ _ _ _ _ hs
  · exact hs

theorem EngineClosed.masterKickRecv (h : EngineClosed i P) (n : Word) (hs : P s) : P (masterKickRecv i n s) := by
  unfold Machine.masterKickRecv
  refine h.core _ _ (((EngineCore.setDir .rx).andThen (.setAck _)).andThen .readData) ?_
  split
  · exact h.dmaBulk _ _ _ _ _ _ hs
  · exact hs

theorem WireClosed.masterBegin (h : WireClosed i P) (k : Dir) (buf len : Word) (stop : Bool) (hs : P s) :
    P (masterBegin i k buf len stop s).2 := by
  unfold Machine.masterBegin
  have h1 := h.seqAddress (wireOf k) (h.phase _ .address (h.core _ _ .transportArm (h.master s (·.begin k buf len stop) hs)))
  revert h1
  generalize Machine.seqAddress i (wireOf k) _ = r
  intro h1
  by_cases hr : r.1 ≠ 0
  · simp only [if_pos hr]
    exact h.masterErrorExit _ h1
  · simp only [if_neg hr]
    have h2 := h.phase r.2 .data h1
    cases k
    · exact h.masterKickRecv len h2
    · exact h.masterKickSend len h2

theorem WireClosed.masterHandler (h : WireClosed i P) (hm : StoreClosed P) (hs : P s) : P (masterHandler i s) := by
  unfold Machine.masterHandler
  have h1 := h.core s _ .dropSlaveFlags hs
  dsimp only
  split
  · exact h.core _ _ (((EngineCore.clearFlag _).andThen (.clearFlag _)).andThen (.clearFlag _)) h1
  · split
    · exact h.masterErrorExit _ (h.core _ _ (.clearFlag _) h1)
    · split
      · exact h.masterErrorExit _ (h.core _ _ ((EngineCore.clearFlag _).andThen (.clearFlag _)) h1)
      · split
        · unfold Machine.masterByte
          split
          · exact h.masterSendStep h1
          · exact h.masterRecvStep hm h1
        · exact h1

theorem EngineClosed.masterDmaDone (h : EngineClosed i P) (c : Chan) (hs : P s) : P (masterDmaDone i c s) := by
  unfold Machine.masterDmaDone
  have h1 := h.chan s c (fun d => { d with done := false }) hs
  dsimp only
  split
  · exact h1
  · exact h.core _ _ (.setEnable _ _) (h.masterX _ (h.core _ _ .dmareqOff h1))

theorem WireClosed.masterDmaError (h : WireClosed i P) (c : Chan) (hs : P s) : P (masterDmaError i c s) := by
  unfold Machine.masterDmaError
  have h1 := h.chan s c (fun d => { d with err := false }) hs
  dsimp only
  split
  · exact h1
  · exact h.masterErrorExit _ h1

/-! ## Slave -/

theorem EngineClosed.slaveLend (h : EngineClosed i P) {m : Bool} {d : Dir} {buf len : Word} {t : State} (hs : P s)
    (e : slaveLend i m d buf len s = .next t) : P t := by
  unfold Machine.slaveLend at e
  split at e
  · cases e
  · cases e; exact h.slave s _ hs

theorem EngineClosed.callbackLend (h : EngineClosed i P) {m : Bool} {d : Dir} {l : Lend} {t : State} (hs : P s)
    (e : callbackLend i m d l s = .next t) : P t := by
  unfold Machine.callbackLend at e
  split at e
  · cases e; exact hs
  · split at e
    · cases e
    · exact h.slaveLend hs e

theorem EngineClosed.applyCb (h : EngineClosed i P) {m : Bool} {d : CbDraw} {t : State} (hs : P s)
    (e : applyCb i m d s = .next t) : P t := by
  unfold Machine.applyCb at e
  split at e
  · cases e; exact hs
  · exact h.callbackLend hs e
  · exact h.callbackLend hs e
  · obtain ⟨u, h1, h2⟩ := Res.bind_eq_next e
    exact h.callbackLend (h.callbackLend hs h1) h2
  · obtain ⟨u, h1, h2⟩ := Res.bind_eq_next e
    exact h.callbackLend (h.callbackLend hs h1) h2

theorem EngineClosed.slaveCallback (h : EngineClosed i P) {e : Event} {t : State} (hs : P s)
    (k : slaveCallback i e s = .next t) : P t := by
  unfold Machine.slaveCallback at k
  split at k
  · cases k; exact hs
  · exact h.applyCb (h.cb _ (h.notify s e hs)) k

theorem EngineClosed.slaveAccept (h : EngineClosed i P) (d : Dir) (buf len : Word) (hs : P s) :
    P (slaveAccept i d buf len s) := by
  unfold Machine.slaveAccept
  have h1 := h.slave s (fun x => (x.lendStart d buf len).modX fun y => { y with lastResult := .busy, idle := false }) hs
  have h2 := closed_ite (c := ((s.modS i fun x => (x.lendStart d buf len).modX fun y =>
    { y with lastResult := .busy, idle := false }).s i).inProgress) h1 (h.phase _ .armed h1)
  exact closed_ite h2 (h.core _ _ (EngineCore.slaveArm.andThen (.setEnable .bndie _)) h2)

theorem EngineClosed.slaveIdle (h : EngineClosed i P) (hs : P s) : P (slaveIdle i s) := by
  unfold Machine.slaveIdle
  split
  · exact hs
  · exact h.log _ _ (h.slaveX _ hs)

theorem EngineClosed.slaveAbort (h : EngineClosed i P) (hs : P s) : P (slaveAbort i s) := by
  unfold Machine.slaveAbort
  have h1 := h.slave _ (fun x => (x.giveBack.modX fun y => { y with lastResult := .aborted }).leaveTransfer)
    (h.dmaStopIf (s.s i).toXfer (h.core s _ .slaveDisarm hs))
  have h2 := h.postS (h.phase _ .idle (h.slaveIdle h1))
  dsimp only
  split
  · exact h.core _ _ .slaveArm h2
  · exact h2

theorem EngineClosed.slaveRecordError (h : EngineClosed i P) {r : Result} {t : State} (hs : P s)
    (e : slaveRecordError i r s = .next t) : P t := by
  obtain ⟨u, h1, h2⟩ := Res.bind_eq_next e
  cases h2
  exact h.phase _ _ (h.slaveCallback (h.slaveX _ (h.phase s _ hs)) h1)

theorem EngineClosed.slaveTxNext (h : EngineClosed i P) {t : State} (hs : P s)
    (e : slaveTxNext i s = .next t) : P t := by
  obtain ⟨u, h1, h2⟩ := Res.bind_eq_next e
  have hu : P u := by
    split at h1
    · exact h.slaveCallback hs h1
    · cases h1; exact hs
  split at h2
  · cases h2
    exact h.core _ _ (.writeData _) (h.slaveX _ hu)
  · obtain ⟨v, h3, h4⟩ := Res.bind_eq_next h2
    cases h4
    exact h.core _ _ (.writeData _) (h.slaveRecordError hu h3)

theorem EngineClosed.slaveRecvByte (h : EngineClosed i P) (hm : StoreClosed P) {t : State} (hs : P s)
    (e : slaveRecvByte i s = .next t) : P t := by
  unfold Machine.slaveRecvByte at e
  dsimp only at e
  split at e
  · cases e
    exact h.core _ _ ((EngineCore.setAck _).andThen .readData) (h.slaveX _ (hm _ _ _ hs))
  · exact h.slaveRecordError (h.core s _ .readData hs) e

theorem EngineClosed.slaveDmaSettle (h : EngineClosed i P) (hs : P s) : P (slaveDmaSettle i s) := by
  unfold Machine.slaveDmaSettle
  dsimp only
  split
  · exact h.chan _ _ _ (h.slave s _ hs)
  · exact hs

theorem EngineClosed.slaveDmaEnd (h : EngineClosed i P) (hs : P s) : P (slaveDmaEnd i s) := by
  unfold Machine.slaveDmaEnd
  have h1 := h.core _ _ .dmareqOff (h.dmaStop (s.s i).dmaChannel (h.slaveDmaSettle hs))
  dsimp only
  split
  · exact h.core _ _ (.setEnable _ _) h1
  · exact h1

theorem EngineClosed.slaveDmaRestart (h : EngineClosed i P) (hs : P s) : P (slaveDmaRestart i s) := by
  unfold Machine.slaveDmaRestart
  split
  · exact h.core _ _ (EngineCore.dmareqOff.andThen (.setEnable .bndie true)) (h.dmaStop _ (h.slaveDmaSettle hs))
  · exact hs

theorem EngineClosed.slaveDmaBulk (h : EngineClosed i P) (a b : Endpoint) (n : Word) (d : DmaDir) (r : Dir) (hs : P s) :
    P (slaveDmaBulk i a b n d r s) := h.slave _ _ (h.dmaBulk _ a b n d r hs)

theorem EngineClosed.slaveDmaArm (h : EngineClosed i P) {t : State} (hs : P s)
    (e : slaveDmaArm i s = .next t) : P t := by
  have h1 := h.slaveDmaRestart hs
  unfold Machine.slaveDmaArm at e
  dsimp only at e
  split at e
  · refine h.slaveTxNext ?_ e
    have h2 := h.core _ _ (.setDir .tx) h1
    split
    · exact h.slaveDmaBulk _ _ _ _ _ h2
    · exact h2
  · cases e
    have h2 := h.core (Machine.slaveDmaRestart i s) _ ((EngineCore.setDir .rx).andThen
      (.setAck (if ((Machine.slaveDmaRestart i s).s i).rxRemaining ≠ 0 then .ack else .nack))) h1
    split
    · exact h.slaveDmaBulk _ _ _ _ _ h2
    · exact h2

theorem EngineClosed.slaveBegin (h : EngineClosed i P) {t : State} (hs : P s)
    (e : slaveBegin i s = .next t) : P t := by
  unfold Machine.slaveBegin at e
  split at e
  · exact h.slaveTxNext (h.core s _ (.setDir .tx) hs) e
  · cases e
    exact h.core s _ ((EngineCore.setDir .rx).andThen (.setAck _)) hs

theorem EngineClosed.slaveAddrMatch (h : EngineClosed i P) {t : State} (hs : P s)
    (e : slaveAddrMatch i s = .next t) : P t := by
  have h1 := h.phase _ .data (h.slave _ .enterTransfer (h.core s _ (.clearFlag .addrmatch) hs))
  unfold Machine.slaveAddrMatch at e
  dsimp only at e
  split at e
  · obtain ⟨u, h2, h3⟩ := Res.bind_eq_next e
    exact h.slaveDmaArm (h.slaveCallback (h.slave _ _ h1) h2) h3
  · obtain ⟨u, h2, h3⟩ := Res.bind_eq_next e
    exact h.slaveBegin (h.slaveCallback (h.slave _ _ h1) h2) h3

theorem EngineClosed.slaveStop (h : EngineClosed i P) (hs : P s) : P (slaveStop i s) := by
  unfold Machine.slaveStop
  have h1 := h.core s _ (.clearFlag .stopf) hs
  have h2 : P (if ((s.modCore i (·.clearFlag .stopf)).s i).transport = .dma
      then Machine.slaveDmaEnd i (s.modCore i (·.clearFlag .stopf)) else s.modCore i (·.clearFlag .stopf)) := by
    split
    · exact h.slaveDmaEnd h1
    · exact h1
  have h3 := h.slave _ (fun x => (x.modX (·.settleResult)).leaveTransfer) h2
  refine h.notify _ _ (h.phase _ _ ?_)
  have h4 : ∀ u, P u → P (slaveEndIdle i u) := by
    intro u hu
    unfold slaveEndIdle
    split
    · exact hu
    · exact h.postS (h.slaveIdle hu)
  refine h4 _ ?_
  unfold slaveTeardown
  exact closed_ite h3 (h.slave _ _ (h.core _ _ .slaveDisarm h3))

theorem EngineClosed.overwriteOut0 (h : EngineClosed i P) (hs : P s) : P (overwriteOut0 i s) :=
  closed_ite (h.given _ false (h.setOut0 _ (h.free _ hs))) hs

theorem EngineClosed.resume (h : EngineClosed i P) (n : Nat) (r : Result) (hs : P s) : P (resume i n r s) := by
  have e : Machine.resume i n r s = ((((Machine.overwriteOut0 i s).modCtx i fun x => { x with blocking := false }).modBus i fun b =>
      { b with sem := n }).modBus i fun b => { b with wait := .none }).setRet r := by
    unfold Machine.resume
    congr 1
    simp only [State.modBus, State.setBus, State.bus, Vector.getElem_set_self, Vector.set_set]
  rw [e]
  exact h.setRet r (h.wait _ _ (h.sem _ _ (h.modCtx _ (h.overwriteOut0 hs))))

theorem EngineClosed.wake (h : EngineClosed i P) (hs : P s) : P (wake i s) := by
  unfold Machine.wake
  split
  · exact h.resume _ _ hs
  · exact hs

theorem EngineClosed.slaveHandler (h : EngineClosed i P) (hm : StoreClosed P) {t : State} (hs : P s)
    (e : slaveHandler i s = .next t) : P t := by
  obtain ⟨v, h12, h3⟩ := Res.bind_eq_next e
  obtain ⟨u, h1, h2⟩ := Res.bind_eq_next h12
  have h0 := h.core s _ .dropMasterFlags hs
  have hu : P u := by
    unfold slaveByteEvent at h1
    split at h1
    · split at h1
      · cases h1
        exact h.core _ _ (EngineCore.readData.andThen (.clearFlag _)) h0
      · split at h1
        · cases h1
          exact h.core _ _ ((EngineCore.clearFlag _).andThen (.clearFlag _)) h0
        · split at h1
          · exact h.slaveTxNext h0 h1
          · exact h.slaveRecvByte hm h0 h1
    · cases h1; exact h0
  have hv : P v := by
    unfold slaveStopEvent at h2
    cases h2
    split
    · exact h.slaveStop hu
    · exact hu
  unfold slaveMatchEvent at h3
  split at h3
  · exact h.slaveAddrMatch hv h3
  · cases h3; exact hv

theorem EngineClosed.slaveDmaDone (h : EngineClosed i P) (c : Chan) (hs : P s) : P (slaveDmaDone i c s) := by
  unfold Machine.slaveDmaDone
  exact h.core _ _ (EngineCore.dmareqOff.andThen (.setEnable .bndie true)) (h.slaveDmaSettle (h.chan s c _ hs))

theorem EngineClosed.slaveDmaError (h : EngineClosed i P) (c : Chan) {t : State} (hs : P s)
    (e : slaveDmaError i c s = .next t) : P t :=
  h.slaveRecordError (h.core _ _ (EngineCore.dmareqOff.andThen (.setEnable .bndie true))
    (h.dmaStop c (h.slaveDmaSettle (h.chan s c _ hs)))) e

/-! ## Events -/

theorem WireClosed.dispatch (h : WireClosed i P) (hm : StoreClosed P) {t : State} (hs : P s)
    (e : dispatch i s = .next t) : P t := by
  unfold Machine.dispatch at e
  split at e
  · split at e
    · cases e
      unfold masterDispatch
      split
      · exact h.masterDmaError _ hs
      · split
        · exact h.masterDmaDone _ hs
        · exact h.masterHandler hm hs
    · unfold slaveDispatch at e
      split at e
      · exact h.slaveDmaError _ hs e
      · split at e
        · cases e
          exact h.slaveDmaDone _ hs
        · exact h.slaveHandler hm hs e
    · cases e; exact hs
  · cases e; exact hs

/-- Dispatch on a slave touches no wire. -/
theorem EngineClosed.dispatch_slave (h : EngineClosed i P) (hm : StoreClosed P) {t : State}
    (hr : (s.bus i).role = .slave) (hs : P s) (e : Machine.dispatch i s = .next t) : P t := by
  unfold Machine.dispatch at e
  rw [hr] at e
  split at e
  · dsimp only at e
    unfold slaveDispatch at e
    split at e
    · exact h.slaveDmaError _ hs e
    · split at e
      · cases e
        exact h.slaveDmaDone _ hs
      · exact h.slaveHandler hm hs e
  · cases e; exact hs

theorem WireClosed.timeout (h : WireClosed i P) (hs : P s) : P (timeout i s) := by
  unfold Machine.timeout
  have h1 : P (timeoutDmaFirst i s) := by
    unfold timeoutDmaFirst
    split
    · exact h.dmaStopIf _ hs
    · exact hs
  split
  · refine h.resume _ _ (h.modCtx _ ?_)
    unfold timeoutAbort
    split
    · split
      · exact hs
      · exact h.slaveAbort h1
    · split
      · exact hs
      · exact h.masterAbort h1
    · exact hs
  · exact hs

/-! ## Clock and lifecycle -/

theorem EngineClosed.solveDivider (h : EngineClosed i P) (r : Word) (hs : P s) : P (solveDivider i r s) := by
  unfold Machine.solveDivider
  split
  · exact h.core _ _ (.writeDivider _ _) hs
  · exact hs

theorem initAdmitted_next {tr : Transport} {a : Bool} {ch : Chan} {f : State → State} {t : State}
    (e : initAdmitted i tr a ch s f = .next t) :
    (∃ r, t = s.setRet r) ∨ ((s.bus i).role = .none ∧ initTest i tr a ch s = .none ∧ t = (f s).setRet .success) := by
  rcases admitted_next e with ⟨r, -, h1⟩ | ⟨-, h1⟩
  · exact .inl ⟨r, h1⟩
  · split at h1
    · rename_i r _
      exact .inl ⟨r, (Host.Outcome.next.inj h1).symm⟩
    · rename_i hn
      split at h1
      · cases h1
      · refine .inr ⟨?_, hn, (Host.Outcome.next.inj h1).symm⟩
        unfold initTest at hn
        split at hn
        · cases hn
        · rename_i hr; exact Decidable.not_not.mp hr

theorem EngineClosed.initMaster (h : EngineClosed i P) (hl : LifeClosed i P) {tr : Transport} {a cb : Bool} {ch : Chan}
    (hr : (s.bus i).role = .none) (hs : P s) : P (initMaster i tr a cb ch s) := by
  unfold Machine.initMaster
  exact h.solveDivider _ (hl.init s .master _ (fun _ => _) (fun b => b.s) (by decide) (by decide) hr hs)

theorem EngineClosed.initSlave (h : EngineClosed i P) (hl : LifeClosed i P) {tr : Transport} {a cb l w : Bool}
    {ch : Chan} (hr : (s.bus i).role = .none) (hs : P s) : P (initSlave i tr a cb l w ch s) := by
  unfold Machine.initSlave armIf
  have h1 : P (Machine.solveDivider i s.port.arg0 (s.modBus i fun b =>
      b.initAs .slave { ownaddr := s.port.arg1.setWidth 10, addr10 := a, wakeen := w } b.m
        (.init tr a l w ch (cbOf cb s.port.arg2)))) :=
    h.solveDivider _ (hl.init s .slave _ (fun b => b.m) (fun _ => _) (by decide)
      (by simp [BusCore.ok, BusCore.pendOk]) hr hs)
  split
  · exact h.core _ _ .slaveArm h1
  · exact h1

theorem WireClosed.deinitAbort (h : WireClosed i P) (hs : P s) : P (deinitAbort i s) := by
  unfold Machine.deinitAbort
  split
  · refine h.core _ _ .slaveDisarm ?_
    split
    · exact hs
    · exact h.slaveAbort hs
  · split
    · exact hs
    · exact h.masterAbort hs
  · exact hs

theorem EngineClosed.releaseChan (h : EngineClosed i P) (hs : P s) : P (releaseChan i s) :=
  closed_ite (h.chan _ _ _ hs) hs

/-! ## Commands -/

/-- A command whose own effect is kept is kept, since turning it away writes RET only. -/
theorem EngineClosed.admitted (h : EngineClosed i P) {k : OpClass} {j : BusId} {f : State → Res} {t : State} (hs : P s)
    (hf : ∀ t, (s.bus j).turnAway k = .none → f s = .next t → P t) (e : admitted k j s f = .next t) : P t := by
  rcases admitted_next e with ⟨r, -, rfl⟩ | ⟨ha, h1⟩
  · exact h.setRet r hs
  · exact hf t ha h1

theorem EngineClosed.withBuffer (h : EngineClosed i P) {f : Word → Word → Res} {t : State} (hs : P s)
    (hf : ∀ t, s.badLen s.port.arg1 = false → f s.port.arg0 s.port.arg1 = .next t → P t)
    (e : withBuffer s f = .next t) : P t := by
  rcases withBuffer_next e with rfl | ⟨hb, h1⟩
  · exact h.setRet _ hs
  · exact hf t hb h1

theorem EngineClosed.primitive (h : EngineClosed i P) {f : BusCore → BusCore} (hf : EngineCore f) {t : State} (hs : P s)
    (e : primitive i f s = .next t) : P t :=
  h.admitted hs (fun t _ e => by cases e; exact h.setRet _ (h.core s _ hf hs)) e

theorem EngineClosed.sequencer (h : EngineClosed i P) {k : OpClass} {f : State → Word × State} (hf : P (f s).2)
    {t : State} (hs : P s) (e : sequencer k i f s = .next t) : P t :=
  h.admitted hs (fun t _ e => by cases e; exact h.setRetWord _ hf) e

theorem WireClosed.masterStart (h : WireClosed i P) {k : Dir} {b : Bool} {t : State} (hs : P s)
    (e : masterStart i k b s = .next t) : P t := by
  refine h.admitted hs (fun t _ e => ?_) e
  refine h.withBuffer hs (fun t _ e => ?_) e
  cases e
  exact h.setRet _ (h.masterBegin _ _ _ _ hs)

theorem WireClosed.masterStartBlk (h : WireClosed i P) {k : Dir} {b : Bool} {t : State} (hs : P s)
    (e : masterStartBlk i k b s = .next t) : P t := by
  refine h.admitted hs (fun t _ e => ?_) e
  refine h.withBuffer hs (fun t _ e => ?_) e
  have h1 := h.masterBegin k s.port.arg0 s.port.arg1 b (h.sem _ 0 (h.masterX (fun x => { x with blocking := true }) hs))
  dsimp only at e
  split at e
  · cases e; exact h.wait _ _ h1
  · cases e; exact h.setRet _ (h.masterX _ h1)

theorem EngineClosed.slaveSetBuf (h : EngineClosed i P) {d : Dir} {t : State} (hs : P s)
    (e : slaveSetBuf i d s = .next t) : P t := by
  refine h.admitted hs (fun t _ e => ?_) e
  refine h.withBuffer hs (fun t _ e => ?_) e
  obtain ⟨u, h1, h2⟩ := Res.bind_eq_next e
  cases h2
  exact h.setRet _ (h.slaveLend hs h1)

theorem EngineClosed.slaveStart (h : EngineClosed i P) {d : Dir} {t : State} (hs : P s)
    (e : slaveStart i d s = .next t) : P t := by
  refine h.admitted hs (fun t _ e => ?_) e
  refine h.withBuffer hs (fun t _ e => ?_) e
  cases e
  exact h.setRet _ (h.slaveAccept _ _ _ hs)

theorem EngineClosed.slaveStartBlk (h : EngineClosed i P) {d : Dir} {t : State} (hs : P s)
    (e : slaveStartBlk i d s = .next t) : P t := by
  refine h.admitted hs (fun t _ e => ?_) e
  refine h.withBuffer hs (fun t _ e => ?_) e
  cases e
  exact h.wait _ _ (h.slaveAccept d s.port.arg0 s.port.arg1
    (h.sem _ 0 (h.slaveX (fun x => { x with blocking := true }) hs)))

theorem EngineClosed.mGetStatus (h : EngineClosed i P) {t : State} (hs : P s)
    (e : execMGetStatus i s = .next t) : P t := by
  refine h.admitted hs (fun t _ e => ?_) e
  cases e
  refine h.setRet _ (h.giveOut0 _ ?_)
  have h1 : P (masterDmaRemaining i s).2 := by
    unfold masterDmaRemaining dmaRemaining
    dsimp only
    split
    · exact h.log _ _ hs
    · exact hs
  split
  · exact hs
  · split
    · exact h1
    · exact hs

theorem EngineClosed.sGetStatus (h : EngineClosed i P) {t : State} (hs : P s)
    (e : execSGetStatus i s = .next t) : P t := by
  refine h.admitted hs (fun t _ e => ?_) e
  cases e
  refine h.setRet _ (h.giveOut0 _ ?_)
  dsimp only
  split
  · exact h.log _ _ hs
  · exact hs

/-- The slave commands, and the others that touch no wire. -/
theorem EngineClosed.sAbort (h : EngineClosed i P) {t : State} (hs : P s) (e : execSAbort i s = .next t) : P t := by
  refine h.admitted hs (fun t _ e => ?_) e
  cases e
  refine h.setRet _ ?_
  split
  · exact hs
  · exact h.slaveAbort hs

/-- What is kept by the elementary updates of an instance is kept by every command on it. Memory is written by
IRQ_ENTRY only. -/
theorem exec_closed {x : Instr} (h : WireClosed x.inst P) (hl : LifeClosed x.inst P)
    (hm : (∃ i, x = .irqEntry i) → StoreClosed P) {t : State} (hs : P s) (e : exec x s = .next t) : P t := by
  cases x <;> simp only [exec] at e
  case initMaster i tr a cb ch =>
    rcases initAdmitted_next e with ⟨r, rfl⟩ | ⟨hr, -, rfl⟩
    · exact h.setRet r hs
    · exact h.setRet _ (h.initMaster hl hr hs)
  case initSlave i tr a cb l w ch =>
    rcases initAdmitted_next e with ⟨r, rfl⟩ | ⟨hr, -, rfl⟩
    · exact h.setRet r hs
    · exact h.setRet _ (h.initSlave hl hr hs)
  case deinit i =>
    unfold execDeinit at e
    exact h.admitted hs (fun t _ e => by cases e; exact h.setRet _ (hl.deinit _ (h.releaseChan (h.deinitAbort hs)))) e
  case setRate i =>
    unfold execSetRate at e
    refine h.admitted hs (fun t _ e => ?_) e
    split at e
    · cases e; exact h.setRet _ hs
    · cases e; exact h.setRet _ (h.solveDivider _ hs)
  case getRate i =>
    unfold execGetRate at e
    exact h.admitted hs (fun t _ e => by cases e; exact h.setRet _ (h.giveOut0 _ hs)) e
  case setTargetAddr i a =>
    unfold execSetTargetAddr at e
    refine h.admitted hs (fun t _ e => ?_) e
    split at e
    · cases e; exact h.setRet _ hs
    · cases e; exact h.setRet _ (h.master s _ hs)
  case setOwnAddr i a =>
    unfold execSetOwnAddr at e
    refine h.admitted hs (fun t _ e => ?_) e
    split at e
    · cases e; exact h.setRet _ hs
    · cases e; exact h.setRet _ (h.slaveX _ (h.core s _ (.ownAddr _ _) hs))
  case setCallback i b =>
    unfold execSetCallback at e
    exact h.admitted hs (fun t _ e => by cases e; exact h.setRet _ (h.modCtx _ hs)) e
  case irqEntry i =>
    unfold execIrqEntry at e
    refine h.admitted hs (fun t _ e => ?_) e
    obtain ⟨u, h1, h2⟩ := Res.bind_eq_next e
    cases h2
    exact h.setRet _ (h.dispatch (hm ⟨i, rfl⟩) hs h1)
  case mSend i b => exact h.masterStart hs e
  case mRecv i b => exact h.masterStart hs e
  case mSendBlk i b => exact h.masterStartBlk hs e
  case mRecvBlk i b => exact h.masterStartBlk hs e
  case mAbort i =>
    unfold execMAbort at e
    refine h.admitted hs (fun t _ e => ?_) e
    cases e
    refine h.setRet _ ?_
    split
    · exact hs
    · exact h.masterAbort hs
  case mGetStatus i => exact h.mGetStatus hs e
  case sSetTxBuf i => exact h.slaveSetBuf hs e
  case sSetRxBuf i => exact h.slaveSetBuf hs e
  case sSend i => exact h.slaveStart hs e
  case sRecv i => exact h.slaveStart hs e
  case sSendBlk i => exact h.slaveStartBlk hs e
  case sRecvBlk i => exact h.slaveStartBlk hs e
  case sAbort i => exact h.sAbort hs e
  case sGetStatus i => exact h.sGetStatus hs e
  case seqStart i => exact h.sequencer (h.seqStart hs) hs e
  case seqRstart i => exact h.sequencer (h.seqRstart hs) hs e
  case seqWaitReady i => exact h.sequencer (h.seqWaitReady hs) hs e
  case seqTxByte i b => exact h.sequencer (h.seqTxByte b hs) hs e
  case seqStop i => exact h.sequencer (h.seqStop hs) hs e
  case seqAddress i d => exact h.sequencer (h.seqAddress d hs) hs e
  case pStart i => exact h.primitive .start hs e
  case pRstart i => exact h.primitive .rstart hs e
  case pStop i => exact h.primitive .stop hs e
  case pSetDir i d => exact h.primitive (.setDir d) hs e
  case pSetAck i a => exact h.primitive (.setAck a) hs e
  case pWriteData i b => exact h.primitive (.writeData b) hs e
  case pReadData i =>
    unfold execPReadData at e
    exact h.admitted hs (fun t _ e => by cases e; exact h.setRet _ (h.setOut0 _ (h.core s _ .readData hs))) e
  case pReadLast i =>
    unfold execPReadLast at e
    exact h.admitted hs (fun t _ e => by cases e; exact h.setRet _ (h.setOut0 _ (h.core s _ .readLast hs))) e
  case pClearFlag i f => exact h.primitive (.clearFlag f) hs e
  case pIntEnable i f => exact h.primitive (.setEnable f true) hs e
  case pIntDisable i f => exact h.primitive (.setEnable f false) hs e
  case pSetDiv i a b =>
    unfold execPSetDiv at e
    refine h.admitted hs (fun t _ e => ?_) e
    split at e
    · cases e
    · cases e; exact h.setRet _ (h.core s _ (.setDiv a b) hs)
  case pModuleEnable i => exact h.primitive .enable hs e
  case pModuleDisable i => exact h.primitive .disable hs e
  case pGetFlags i =>
    unfold execPGetFlags at e
    exact h.admitted hs (fun t _ e => by cases e; exact h.setRet _ (h.setOut0 _ hs)) e
  case pSetDmareq i d en => exact h.primitive (.setDmareq d en) hs e

end Sys2Proof.Machine
end

