-- ==== Sys2Proof/Laws/Memory.lean ====
section
/-! SUPPORT. Laws/Memory.lean: buffer memory: read after write, and the canonical form every write keeps. -/

namespace Sys2Proof.Machine

theorem memRead_memCell (a k : Nat) (v : Byte) (rest : List Host.Cell) :
    memRead (memCell a v rest) k = if a = k then (if v = unlistedByte then memRead rest k else v) else memRead rest k := by
  unfold memCell
  by_cases hv : v = unlistedByte
  · simp [hv]
  · by_cases ha : a = k <;> simp [hv, ha, memRead]

/-- In a canonical list every address is above the bound its cells are above. -/
theorem memRead_above {m : List Host.Cell} {k : Nat} (h : m.all (fun c => decide (k < c.1)) = true) :
    memRead m k = unlistedByte := by
  induction m with
  | nil => rfl
  | cons c rest ih =>
    simp only [List.all_cons, Bool.and_eq_true, decide_eq_true_eq] at h
    simp only [memRead]
    rw [if_neg (by omega)]
    exact ih h.2

theorem all_above_trans {m : List Host.Cell} {j k : Nat} (hjk : j ≤ k)
    (h : m.all (fun c => decide (k < c.1)) = true) : m.all (fun c => decide (j < c.1)) = true := by
  simp only [List.all_eq_true, decide_eq_true_eq] at h ⊢
  intro c hc
  have := h c hc
  omega

/-- A write keeps a lower bound of the addresses that lies below the address written. -/
theorem memWrite_above (m : List Host.Cell) {j a : Nat} (v : Byte) (hja : j < a)
    (h : m.all (fun c => decide (j < c.1)) = true) : (memWrite m a v).all (fun c => decide (j < c.1)) = true := by
  induction m with
  | nil => unfold memWrite memCell; split <;> simp [hja]
  | cons c rest ih =>
    simp only [List.all_cons, Bool.and_eq_true, decide_eq_true_eq] at h
    unfold memWrite memCell
    split
    · split <;> simp [hja, h.2]
    · split
      · split <;> simp [hja, h.1, h.2]
      · simp only [List.all_cons, Bool.and_eq_true, decide_eq_true_eq]
        exact ⟨h.1, ih h.2⟩

/-- A write keeps the canonical form. -/
theorem memWrite_wf (m : List Host.Cell) (a : Nat) (v : Byte) (h : Memory.wf m = true) :
    Memory.wf (memWrite m a v) = true := by
  induction m with
  | nil => unfold memWrite memCell; split <;> simp_all [Memory.wf]
  | cons c rest ih =>
    obtain ⟨k, u⟩ := c
    simp only [Memory.wf, Bool.and_eq_true] at h
    obtain ⟨⟨hu, hk⟩, hr⟩ := h
    unfold memWrite memCell
    split
    · rename_i hka
      subst hka
      split
      · exact hr
      · rename_i hv
        simp only [Memory.wf, Bool.and_eq_true]
        exact ⟨⟨bne_iff_ne.mpr hv, hk⟩, hr⟩
    · split
      · rename_i hak
        have hcons : Memory.wf ((k, u) :: rest) = true := by
          simp only [Memory.wf, Bool.and_eq_true]
          exact ⟨⟨hu, hk⟩, hr⟩
        split
        · exact hcons
        · rename_i hv
          simp only [Memory.wf, List.all_cons, Bool.and_eq_true, decide_eq_true_eq] at hcons ⊢
          exact ⟨⟨bne_iff_ne.mpr hv, hak, all_above_trans (Nat.le_of_lt hak) hk⟩, hcons⟩
      · simp only [Memory.wf, Bool.and_eq_true]
        exact ⟨⟨hu, memWrite_above rest v (by omega) hk⟩, ih hr⟩

/-- Reading the byte just written. -/
theorem memRead_memWrite_same (m : List Host.Cell) (a : Nat) (v : Byte) (h : Memory.wf m = true) :
    memRead (memWrite m a v) a = v := by
  induction m with
  | nil => simp only [memWrite, memRead_memCell, memRead]; split <;> simp_all
  | cons c rest ih =>
    obtain ⟨k, u⟩ := c
    simp only [Memory.wf, Bool.and_eq_true] at h
    obtain ⟨⟨_, hk⟩, hr⟩ := h
    unfold memWrite
    split
    · rename_i hka
      subst hka
      rw [memRead_memCell, if_pos rfl]
      split
      · rename_i hv; rw [hv]; exact memRead_above hk
      · rfl
    · split
      · rename_i hne hlt
        rw [memRead_memCell, if_pos rfl]
        split
        · rename_i hv
          simp only [memRead, if_neg hne]
          rw [hv]
          exact memRead_above (all_above_trans (Nat.le_of_lt hlt) hk)
        · rfl
      · rename_i hne _
        simp only [memRead, if_neg hne]
        exact ih hr

/-- A write changes no other byte. -/
theorem memRead_memWrite_ne (m : List Host.Cell) {a k : Nat} (v : Byte) (hne : k ≠ a) :
    memRead (memWrite m a v) k = memRead m k := by
  induction m with
  | nil => simp only [memWrite, memRead_memCell, if_neg (Ne.symm hne)]
  | cons c rest ih =>
    obtain ⟨j, u⟩ := c
    unfold memWrite
    split
    · rename_i hja
      subst hja
      simp only [memRead_memCell, memRead, if_neg (Ne.symm hne)]
    · split
      · rw [memRead_memCell, if_neg (Ne.symm hne)]
      · simp only [memRead, ih]

theorem State.load_store_same (s : State) (a : Word) (b : Byte) (h : Memory.wf s.mem = true) :
    (s.store a b).load a = b := memRead_memWrite_same s.mem a.toNat b h

theorem State.load_store_ne (s : State) {a k : Word} (b : Byte) (h : k ≠ a) : (s.store a b).load k = s.load k :=
  memRead_memWrite_ne s.mem b fun hn => h (BitVec.eq_of_toNat_eq hn)

/-- A load depends on memory only. -/
theorem State.load_congr {s t : State} (h : t.mem = s.mem) (a : Word) : t.load a = s.load a := by
  unfold State.load; rw [h]

end Sys2Proof.Machine
end

