-- ==== Sys2Proof/Laws/PerInstr.lean ====
section
/-! SUPPORT. PerInstr.lean: per instruction, the four fields of its command word (30_encoding.md R100): the opcode of its
row, zero, its instance and its IMM operand, whatever the operands. -/

namespace Sys2Proof.Laws

/-- The word made of four fields has these fields. -/
theorem mkWord_fields (opc : Byte) (i : BusId) (imm : BitVec 16) :
    (Decode.mkWord opc i imm).extractLsb' 24 8 = opc ∧ (Decode.mkWord opc i imm).extractLsb' 20 4 = 0 ∧
    (Decode.mkWord opc i imm).extractLsb' 16 4 = (BitVec.ofFin i : BitVec 4) ∧
    (Decode.mkWord opc i imm).extractLsb' 0 16 = imm := by
  unfold Decode.mkWord
  generalize (BitVec.ofFin i : BitVec 4) = j
  refine ⟨?_, ?_, ?_, ?_⟩ <;> ext k hk <;> simp [BitVec.getElem_append, BitVec.getLsbD_append] <;> try grind

/-- The fields of the word of `x`. -/
def WordLayout.Statement (x : Instr) : Prop :=
  (encode x).extractLsb' 24 8 = Encode.opc x ∧ (encode x).extractLsb' 20 4 = 0 ∧
  (encode x).extractLsb' 16 4 = (BitVec.ofFin x.inst : BitVec 4) ∧ (encode x).extractLsb' 0 16 = Encode.imm x

namespace WordLayout

theorem layout (x : Instr) : Statement x := mkWord_fields _ _ _

theorem initMaster (i : BusId) (transport : Transport) (addr10 cb : Bool) (ch : Chan) : Statement (.initMaster i transport addr10 cb ch) := layout _
theorem initSlave (i : BusId) (transport : Transport) (addr10 cb listening wakeup : Bool) (ch : Chan) : Statement (.initSlave i transport addr10 cb listening wakeup ch) := layout _
theorem deinit (i : BusId) : Statement (.deinit i) := layout _
theorem setRate (i : BusId) : Statement (.setRate i) := layout _
theorem getRate (i : BusId) : Statement (.getRate i) := layout _
theorem setTargetAddr (i : BusId) (addr10 : Bool) : Statement (.setTargetAddr i addr10) := layout _
theorem setOwnAddr (i : BusId) (addr10 : Bool) : Statement (.setOwnAddr i addr10) := layout _
theorem setCallback (i : BusId) (install : Bool) : Statement (.setCallback i install) := layout _
theorem irqEntry (i : BusId) : Statement (.irqEntry i) := layout _
theorem mSend (i : BusId) (stop : Bool) : Statement (.mSend i stop) := layout _
theorem mRecv (i : BusId) (stop : Bool) : Statement (.mRecv i stop) := layout _
theorem mSendBlk (i : BusId) (stop : Bool) : Statement (.mSendBlk i stop) := layout _
theorem mRecvBlk (i : BusId) (stop : Bool) : Statement (.mRecvBlk i stop) := layout _
theorem mAbort (i : BusId) : Statement (.mAbort i) := layout _
theorem mGetStatus (i : BusId) : Statement (.mGetStatus i) := layout _
theorem sSetTxBuf (i : BusId) : Statement (.sSetTxBuf i) := layout _
theorem sSetRxBuf (i : BusId) : Statement (.sSetRxBuf i) := layout _
theorem sSend (i : BusId) : Statement (.sSend i) := layout _
theorem sRecv (i : BusId) : Statement (.sRecv i) := layout _
theorem sSendBlk (i : BusId) : Statement (.sSendBlk i) := layout _
theorem sRecvBlk (i : BusId) : Statement (.sRecvBlk i) := layout _
theorem sAbort (i : BusId) : Statement (.sAbort i) := layout _
theorem sGetStatus (i : BusId) : Statement (.sGetStatus i) := layout _
theorem seqStart (i : BusId) : Statement (.seqStart i) := layout _
theorem seqRstart (i : BusId) : Statement (.seqRstart i) := layout _
theorem seqWaitReady (i : BusId) : Statement (.seqWaitReady i) := layout _
theorem seqTxByte (i : BusId) (b : Byte) : Statement (.seqTxByte i b) := layout _
theorem seqStop (i : BusId) : Statement (.seqStop i) := layout _
theorem seqAddress (i : BusId) (d : WireDir) : Statement (.seqAddress i d) := layout _
theorem pStart (i : BusId) : Statement (.pStart i) := layout _
theorem pRstart (i : BusId) : Statement (.pRstart i) := layout _
theorem pStop (i : BusId) : Statement (.pStop i) := layout _
theorem pSetDir (i : BusId) (d : Dir) : Statement (.pSetDir i d) := layout _
theorem pSetAck (i : BusId) (a : Ack) : Statement (.pSetAck i a) := layout _
theorem pWriteData (i : BusId) (b : Byte) : Statement (.pWriteData i b) := layout _
theorem pReadData (i : BusId) : Statement (.pReadData i) := layout _
theorem pReadLast (i : BusId) : Statement (.pReadLast i) := layout _
theorem pClearFlag (i : BusId) (f : Sticky) : Statement (.pClearFlag i f) := layout _
theorem pIntEnable (i : BusId) (src : IntSrc) : Statement (.pIntEnable i src) := layout _
theorem pIntDisable (i : BusId) (src : IntSrc) : Statement (.pIntDisable i src) := layout _
theorem pSetDiv (i : BusId) (sample : Byte) (step : BitVec 4) : Statement (.pSetDiv i sample step) := layout _
theorem pModuleEnable (i : BusId) : Statement (.pModuleEnable i) := layout _
theorem pModuleDisable (i : BusId) : Statement (.pModuleDisable i) := layout _
theorem pGetFlags (i : BusId) : Statement (.pGetFlags i) := layout _
theorem pSetDmareq (i : BusId) (d : Dir) (en : Bool) : Statement (.pSetDmareq i d en) := layout _

end WordLayout

end Sys2Proof.Laws
end

