-- ==== Sys2Proof/Laws/Sequencer.lean ====
section
/-! SUPPORT. Laws/Sequencer.lean: what a sequencer routine can change (41_sequencer.md R191): the core and the trace of
its own instance and the draws made; never a context, a buffer, the semaphore, a channel or an interrupt enable. -/

namespace Sys2Proof.Machine

/-- The enables and requests of a core that no bus step and no sequencer routine writes. -/
def BusCore.sources (c : BusCore) : Bool × Bool × Bool × Bool × Bool × Bool × Bool :=
  (c.bndie, c.nackie, c.arbie, c.addrie, c.stopie, c.dmatxen, c.dmarxen)

/-- `t` is `s` but for the core and the trace of instance `i` and the draws made; the sources are as they were. -/
structure SeqOnly (i : BusId) (s t : State) : Prop where
  others : ∀ j, j ≠ i → t.bus j = s.bus j
  role : (t.bus i).role = (s.bus i).role
  master : (t.bus i).m = (s.bus i).m
  slave : (t.bus i).s = (s.bus i).s
  phase : (t.bus i).phase = (s.bus i).phase
  sem : (t.bus i).sem = (s.bus i).sem
  wait : (t.bus i).wait = (s.bus i).wait
  clk : (t.bus i).clk = (s.bus i).clk
  cbtrace : (t.bus i).cbtrace = (s.bus i).cbtrace
  sources : (t.bus i).core.sources = (s.bus i).core.sources
  params : t.params = s.params
  dma : t.dma = s.dma
  dmatrace : t.dmatrace = s.dmatrace
  mem : t.mem = s.mem
  port : t.port = s.port
  inputs : t.env.inputs = s.env.inputs
  cbs : t.env.cbs = s.env.cbs

theorem SeqOnly.refl (i : BusId) (s : State) : SeqOnly i s s := by
  constructor <;> intros <;> rfl

theorem SeqOnly.trans {i : BusId} {s t u : State} (h : SeqOnly i s t) (k : SeqOnly i t u) : SeqOnly i s u where
  others j hj := (k.others j hj).trans (h.others j hj)
  role := k.role.trans h.role
  master := k.master.trans h.master
  slave := k.slave.trans h.slave
  phase := k.phase.trans h.phase
  sem := k.sem.trans h.sem
  wait := k.wait.trans h.wait
  clk := k.clk.trans h.clk
  cbtrace := k.cbtrace.trans h.cbtrace
  sources := k.sources.trans h.sources
  params := k.params.trans h.params
  dma := k.dma.trans h.dma
  dmatrace := k.dmatrace.trans h.dmatrace
  mem := k.mem.trans h.mem
  port := k.port.trans h.port
  inputs := k.inputs.trans h.inputs
  cbs := k.cbs.trans h.cbs

/-- A change of the core that leaves the sources alone. -/
theorem SeqOnly.modCore (i : BusId) (s : State) {f : BusCore → BusCore} (h : ∀ c, (f c).sources = c.sources) :
    SeqOnly i s (s.modCore i f) := by
  constructor
  case others => exact fun j hj => State.modCore_bus_ne s f hj
  case sources => rw [State.modCore_bus_same]; exact h _
  all_goals first | rfl | rw [State.modCore_bus_same]; rfl

/-- What a bus step leaves alone. -/
theorem Bus.busStep_frame (b : Bus) (d : BusDraw) :
    (b.busStep d).role = b.role ∧ (b.busStep d).m = b.m ∧ (b.busStep d).s = b.s ∧ (b.busStep d).phase = b.phase ∧
    (b.busStep d).sem = b.sem ∧ (b.busStep d).wait = b.wait ∧ (b.busStep d).clk = b.clk ∧
    (b.busStep d).cbtrace = b.cbtrace ∧ (b.busStep d).core.sources = b.core.sources := by
  unfold Bus.busStep
  split
  · split
    · unfold Bus.remote Bus.addressPhase
      split <;> (repeat' split) <;> simp [Bus.matched, Bus.receiveByte, Bus.remoteStop, BusCore.sources]
    · split <;> simp [BusCore.sources]
    · simp [BusCore.sources]
    · simp [BusCore.sources]
    · unfold Bus.ownerByte
      (repeat' split) <;> simp [Bus.slaveByte, Bus.remoteStop, BusCore.sources]
    · split <;> simp [Bus.receiveByte, BusCore.sources]
  · simp

theorem SeqOnly.busStep (i : BusId) (s : State) (d : BusDraw) : SeqOnly i s (s.busStep i d) := by
  obtain ⟨h1, h2, h3, h4, h5, h6, h7, h8, h9⟩ := Bus.busStep_frame (s.bus i) d
  constructor
  case others => exact fun j hj => State.busStep_bus_ne s d hj
  all_goals first | rfl | rw [State.busStep_bus_same]; assumption

theorem SeqOnly.drawPoll (i : BusId) (s : State) : SeqOnly i s s.drawPoll.2 := by
  unfold State.drawPoll
  split <;> constructor <;> intros <;> rfl

theorem BusCore.sources_clearFlag (c : BusCore) (f : Sticky) : (c.clearFlag f).sources = c.sources := by
  cases f <;> rfl

theorem BusCore.sources_start (c : BusCore) : c.start.sources = c.sources := by
  unfold BusCore.start; split <;> rfl

theorem BusCore.sources_rstart (c : BusCore) : c.rstart.sources = c.sources := by
  unfold BusCore.rstart; split <;> rfl

theorem BusCore.sources_stop (c : BusCore) : c.stop.sources = c.sources := by
  unfold BusCore.stop; split <;> rfl

theorem SeqOnly.cancel (i : BusId) (s : State) : SeqOnly i s (s.modCore i .cancel) := SeqOnly.modCore i s fun _ => rfl

theorem poll_only (i : BusId) (cond : BusCore → Bool) (s : State) : SeqOnly i s (poll i cond s).2 := by
  unfold poll
  split
  · exact .refl i s
  · split
    · exact .refl i s
    · split
      · exact (SeqOnly.drawPoll i s).trans (.cancel i _)
      · split
        · exact (SeqOnly.drawPoll i s).trans (.busStep i _ _)
        · exact (SeqOnly.drawPoll i s).trans (.cancel i _)

theorem SeqOnly.clearFlag (i : BusId) (s : State) (f : Sticky) : SeqOnly i s (s.modCore i (·.clearFlag f)) :=
  SeqOnly.modCore i s fun c => c.sources_clearFlag f

theorem seqCondition_only (i : BusId) {request : BusCore → BusCore} (cond : BusCore → Bool) (s : State)
    (h : ∀ c, (request c).sources = c.sources) : SeqOnly i s (seqCondition i request cond s).2 := by
  have h1 : SeqOnly i s (s.modCore i fun c => request (c.clearFlag .startf)) :=
    SeqOnly.modCore i s fun c => (h _).trans (c.sources_clearFlag .startf)
  unfold seqCondition
  dsimp only
  split
  · exact (h1.trans (poll_only i cond _)).trans (.clearFlag i _ _)
  · exact h1.trans (poll_only i cond _)

theorem seqStart_only (i : BusId) (s : State) : SeqOnly i s (seqStart i s).2 :=
  seqCondition_only i _ s BusCore.sources_start

theorem seqRstart_only (i : BusId) (s : State) : SeqOnly i s (seqRstart i s).2 :=
  seqCondition_only i _ s BusCore.sources_rstart

theorem seqWaitReady_only (i : BusId) (s : State) : SeqOnly i s (seqWaitReady i s).2 := poll_only i _ s

theorem seqTxDone_only (i : BusId) (ok : Bool) (s : State) : SeqOnly i s (seqTxDone i ok s).2 := by
  unfold seqTxDone
  split
  · exact .clearFlag i s _
  · split
    · exact .refl i s
    · split
      · exact .modCore i s fun c => (BusCore.sources_clearFlag _ _).trans (c.sources_clearFlag _)
      · exact .clearFlag i s _

theorem seqTxByte_only (i : BusId) (b : Byte) (s : State) : SeqOnly i s (seqTxByte i b s).2 := by
  unfold seqTxByte
  dsimp only
  split
  · exact seqWaitReady_only i s
  · refine .trans ?_ (seqTxDone_only i _ _)
    refine .trans ?_ (poll_only i _ _)
    refine .trans (seqWaitReady_only i s) (.modCore i _ ?_)
    exact fun _ => rfl

theorem seqStop_only (i : BusId) (s : State) : SeqOnly i s (seqStop i s).2 := by
  unfold seqStop
  refine .trans ?_ (poll_only i _ _)
  exact .modCore i s BusCore.sources_stop

theorem seqThen_only {i : BusId} {s : State} {r : Word × State} {f : State → Word × State} (hr : SeqOnly i s r.2)
    (hf : ∀ t, SeqOnly i t (f t).2) : SeqOnly i s (seqThen r f).2 := by
  unfold seqThen
  split
  · exact hr.trans (hf _)
  · exact hr

theorem seqAddressBytes_only (i : BusId) (a : BitVec 10) (addr10 : Bool) (d : WireDir) (s : State) :
    SeqOnly i s (seqAddressBytes i a addr10 d s).2 := by
  unfold seqAddressBytes
  split
  · exact seqTxByte_only i _ s
  · refine seqThen_only (seqThen_only (seqTxByte_only i _ s) (seqTxByte_only i _)) fun t => ?_
    split
    · exact .refl i t
    · exact seqThen_only (seqRstart_only i t) (seqTxByte_only i _)

theorem seqAddress_only (i : BusId) (d : WireDir) (s : State) : SeqOnly i s (seqAddress i d s).2 := by
  unfold seqAddress
  refine seqThen_only ?_ fun t => .trans ?_ (seqAddressBytes_only i _ _ _ _)
  case refine_2 => exact .modCore i t fun _ => rfl
  split
  · exact seqRstart_only i s
  · exact seqStart_only i s

end Sys2Proof.Machine
end

