-- ==== Sys2Proof/Laws/Slave.lean ====
section
/-! SUPPORT. Laws/Slave.lean: what lending a buffer to a slave and settling its channel leave alone, and the settle in the words
of Safety.lean (43_slave.md R281 to R285, 45_transport.md R366, 60_exceptions.md R476). -/

namespace Sys2Proof.Machine

/-! ## Lending -/

@[simp] theorem SCtx.lend_listening (x : SCtx) (d : Dir) (b n : Word) : (x.lend d b n).listening = x.listening := by cases d <;> rfl
@[simp] theorem SCtx.lend_inProgress (x : SCtx) (d : Dir) (b n : Word) : (x.lend d b n).inProgress = x.inProgress := by cases d <;> rfl
@[simp] theorem SCtx.lend_wakeup (x : SCtx) (d : Dir) (b n : Word) : (x.lend d b n).wakeup = x.wakeup := by cases d <;> rfl
@[simp] theorem SCtx.lend_curDir (x : SCtx) (d : Dir) (b n : Word) : (x.lend d b n).curDir = x.curDir := by cases d <;> rfl
@[simp] theorem SCtx.lend_transport (x : SCtx) (d : Dir) (b n : Word) : (x.lend d b n).transport = x.transport := by cases d <;> rfl
@[simp] theorem SCtx.lend_dmaChannel (x : SCtx) (d : Dir) (b n : Word) : (x.lend d b n).dmaChannel = x.dmaChannel := by cases d <;> rfl
@[simp] theorem SCtx.lend_idle (x : SCtx) (d : Dir) (b n : Word) : (x.lend d b n).idle = x.idle := by cases d <;> rfl
@[simp] theorem SCtx.lend_blocking (x : SCtx) (d : Dir) (b n : Word) : (x.lend d b n).blocking = x.blocking := by cases d <;> rfl
@[simp] theorem SCtx.lend_cb (x : SCtx) (d : Dir) (b n : Word) : (x.lend d b n).cb = x.cb := by cases d <;> rfl
@[simp] theorem SCtx.lend_lastResult (x : SCtx) (d : Dir) (b n : Word) : (x.lend d b n).lastResult = x.lastResult := by cases d <;> rfl
@[simp] theorem SCtx.lend_dmaDir (x : SCtx) (d : Dir) (b n : Word) : (x.lend d b n).dmaDir = d := by cases d <;> rfl
@[simp] theorem SCtx.lendSet_listening (x : SCtx) (d : Dir) (b n : Word) : (x.lendSet d b n).listening = x.listening := by cases d <;> rfl
@[simp] theorem SCtx.lendSet_inProgress (x : SCtx) (d : Dir) (b n : Word) : (x.lendSet d b n).inProgress = x.inProgress := by cases d <;> rfl
@[simp] theorem SCtx.lendSet_wakeup (x : SCtx) (d : Dir) (b n : Word) : (x.lendSet d b n).wakeup = x.wakeup := by cases d <;> rfl
@[simp] theorem SCtx.lendSet_curDir (x : SCtx) (d : Dir) (b n : Word) : (x.lendSet d b n).curDir = x.curDir := by cases d <;> rfl
@[simp] theorem SCtx.lendSet_transport (x : SCtx) (d : Dir) (b n : Word) : (x.lendSet d b n).transport = x.transport := by cases d <;> rfl
@[simp] theorem SCtx.lendSet_dmaChannel (x : SCtx) (d : Dir) (b n : Word) : (x.lendSet d b n).dmaChannel = x.dmaChannel := by cases d <;> rfl
@[simp] theorem SCtx.lendSet_idle (x : SCtx) (d : Dir) (b n : Word) : (x.lendSet d b n).idle = x.idle := by cases d <;> rfl
@[simp] theorem SCtx.lendSet_blocking (x : SCtx) (d : Dir) (b n : Word) : (x.lendSet d b n).blocking = x.blocking := by cases d <;> rfl
@[simp] theorem SCtx.lendSet_cb (x : SCtx) (d : Dir) (b n : Word) : (x.lendSet d b n).cb = x.cb := by cases d <;> rfl
@[simp] theorem SCtx.lendSet_lastResult (x : SCtx) (d : Dir) (b n : Word) : (x.lendSet d b n).lastResult = x.lastResult := by cases d <;> rfl
@[simp] theorem SCtx.lendSet_dmaDir (x : SCtx) (d : Dir) (b n : Word) : (x.lendSet d b n).dmaDir = d := by cases d <;> rfl
@[simp] theorem SCtx.lendStart_listening (x : SCtx) (d : Dir) (b n : Word) : (x.lendStart d b n).listening = x.listening := by cases d <;> rfl
@[simp] theorem SCtx.lendStart_inProgress (x : SCtx) (d : Dir) (b n : Word) : (x.lendStart d b n).inProgress = x.inProgress := by cases d <;> rfl
@[simp] theorem SCtx.lendStart_wakeup (x : SCtx) (d : Dir) (b n : Word) : (x.lendStart d b n).wakeup = x.wakeup := by cases d <;> rfl
@[simp] theorem SCtx.lendStart_curDir (x : SCtx) (d : Dir) (b n : Word) : (x.lendStart d b n).curDir = x.curDir := by cases d <;> rfl
@[simp] theorem SCtx.lendStart_transport (x : SCtx) (d : Dir) (b n : Word) : (x.lendStart d b n).transport = x.transport := by cases d <;> rfl
@[simp] theorem SCtx.lendStart_dmaChannel (x : SCtx) (d : Dir) (b n : Word) : (x.lendStart d b n).dmaChannel = x.dmaChannel := by cases d <;> rfl
@[simp] theorem SCtx.lendStart_idle (x : SCtx) (d : Dir) (b n : Word) : (x.lendStart d b n).idle = x.idle := by cases d <;> rfl
@[simp] theorem SCtx.lendStart_blocking (x : SCtx) (d : Dir) (b n : Word) : (x.lendStart d b n).blocking = x.blocking := by cases d <;> rfl
@[simp] theorem SCtx.lendStart_cb (x : SCtx) (d : Dir) (b n : Word) : (x.lendStart d b n).cb = x.cb := by cases d <;> rfl
@[simp] theorem SCtx.lendStart_lastResult (x : SCtx) (d : Dir) (b n : Word) : (x.lendStart d b n).lastResult = x.lastResult := by cases d <;> rfl
@[simp] theorem SCtx.lendStart_dmaDir (x : SCtx) (d : Dir) (b n : Word) : (x.lendStart d b n).dmaDir = d := by cases d <;> rfl

/-- A lent buffer keeps R34 (a). -/
theorem SCtx.lend_ok {x : SCtx} (h : x.ok = true) (d : Dir) (b n : Word) : (x.lend d b n).ok = true := by
  simp only [SCtx.ok, Bool.and_eq_true] at h ⊢
  cases d with
  | tx => exact ⟨rfl, h.2⟩
  | rx => exact ⟨h.1, rfl⟩

/-! ## Settling -/

/-- The counts after a settle, in the words of R366. -/
theorem SCtx.dmaSettled_eq (x : SCtx) (left : Word) : { x.dmaSettled left with unsettled := .none } = x.settled left := by
  obtain ⟨y, li, ip, wk, dd, cd, u, ts, rs⟩ := x
  rcases u with _ | _ | _
  · rfl
  · simp only [SCtx.dmaSettled, SCtx.settled]
    split
    · simp only [SCtx.modX, Xfer.advanceRx]
      congr 2
      bv_omega
    · rfl
  · simp only [SCtx.dmaSettled, SCtx.settled]
    split
    · simp only [SCtx.modX, Xfer.advanceTx]
      congr 2
      bv_omega
    · rfl

/-- Settling an unset buffer leaves R34 (a) as it is. -/
theorem SCtx.settled_ok {x : SCtx} (h : x.ok = true) (left : Word) : (x.settled left).ok = true := by
  unfold SCtx.settled
  simp only [SCtx.ok, Bool.and_eq_true, Bool.or_eq_true, beq_iff_eq] at h ⊢
  split
  · exact h
  · split
    · rename_i hl
      refine ⟨?_, h.2⟩
      rcases h.1 with h1 | h1
      · exact .inl (by simpa using h1)
      · rw [h1] at hl
        exact .inr (BitVec.le_zero_iff.mp hl)
    · exact h
  · split
    · rename_i hl
      refine ⟨h.1, ?_⟩
      rcases h.2 with h1 | h1
      · exact .inl h1
      · rw [h1] at hl
        exact absurd hl BitVec.not_lt_zero
    · exact h

/-- All that SlaveDmaSettle does: counts and channel, when the channel is this instance's. -/
theorem slaveDmaSettle_eq (i : BusId) (s : State) :
    slaveDmaSettle i s =
      if (s.chan (s.s i).dmaChannel).owner = .some i then
        (s.modS i fun x => x.settled (s.chan (s.s i).dmaChannel).remaining).channelReleased i (s.s i).dmaChannel
      else s := by
  unfold slaveDmaSettle State.channelReleased
  dsimp only
  split
  · rename_i h
    simp only [State.modS_chan, h, if_true, SCtx.dmaSettled_eq]
    rfl
  · rfl

/-! ## The wake -/

/-- With no posted caller the wake does nothing (R388). -/
theorem wake_not_due {i : BusId} {s : State} (h : (s.bus i).wakeDue = false) : wake i s = s := by
  simp [wake, h]

end Sys2Proof.Machine
end

