-- ==== Sys2Proof/Laws/Step.lean ====
section
/-! SUPPORT. Laws/Step.lean: what is kept by the elementary updates is kept by every input and by every step
(60_exceptions.md R447, R471). -/

namespace Sys2Proof.Machine

variable {P : State → Prop} {s : State}

/-- `P` is kept by every elementary update on every instance, by writes to memory, by the lifecycle, by taking an input
off the schedule and by the system reset. -/
structure StepClosed (P : State → Prop) : Prop where
  wire : ∀ i, WireClosed i P
  life : ∀ i, LifeClosed i P
  store : StoreClosed P
  inputs : ∀ s l, P s → P (s.withInputs l)
  reset : ∀ s, P s → P (systemReset s)

theorem StepClosed.exec (h : StepClosed P) {x : Instr} {t : State} (hs : P s) (e : exec x s = .next t) : P t :=
  exec_closed (h.wire _) (h.life _) (fun _ => h.store) hs e

theorem StepClosed.port (h : StepClosed P) (p : Port) (hs : P s) : P (s.setPort p) := (h.wire 0).port s p hs

theorem StepClosed.setRdata (h : StepClosed P) (v : Word) (hs : P s) : P (s.setRdata v) := (h.wire 0).port s _ hs

theorem StepClosed.command (h : StepClosed P) {w : Word} {t : State} (hs : P s) (e : command w s = .next t) : P t := by
  unfold Machine.command at e
  dsimp only at e
  split at e
  · exact h.exec (h.port _ hs) e
  · cases e; exact (h.wire 0).setRet _ (h.port _ hs)

theorem StepClosed.oneField (h : StepClosed P) {d off : Word} {p : Option Instr} {t : State} (hs : P s)
    (e : oneField d off p s = .next t) : P t := by
  unfold Machine.oneField at e
  split at e
  · cases e; exact hs
  · split at e
    · exact h.exec hs e
    · cases e

theorem StepClosed.whileOn (h : StepClosed P) {i : BusId} {r : Res} {t : State} (hs : P s) (hr : r = .next t → P t)
    (e : whileOn i s r = .next t) : P t := by
  unfold Machine.whileOn at e
  split at e
  · cases e; exact (h.wire 0).setRet _ hs
  · exact hr e

theorem StepClosed.writeStatus (h : StepClosed P) {i : BusId} {off v : Word} {t : State} (hs : P s)
    (e : writeStatus i off v s = .next t) : P t := by
  unfold Machine.writeStatus at e
  split at e
  · exact h.exec hs e
  · cases e

theorem StepClosed.writeReg (h : StepClosed P) {off v : Word} {t : State} (hs : P s)
    (e : writeReg off v s = .next t) : P t := by
  unfold Machine.writeReg at e
  split at e
  · cases e
  · split at e
    · exact h.command hs e
    · cases e; exact h.port _ hs
    · cases e; exact h.port _ hs
    · cases e; exact h.port _ hs
    · cases e; exact hs
    · cases e; exact hs
    · cases e; exact hs
    · exact h.whileOn hs (h.oneField hs) e
    · exact h.writeStatus hs e
    · exact h.whileOn hs (h.oneField hs) e
    · exact h.exec hs e
    · cases e
    · exact h.exec hs e
    · exact h.whileOn hs (h.oneField hs) e

/-- A free delivery reads 0 in every bit R28 does not list. -/
theorem freeDelivery_readable (r : Reg) (s : State) :
    (freeDelivery r s).port.rdata &&& r.readable = (freeDelivery r s).port.rdata := by
  simp [freeDelivery, State.setRdata, BitVec.and_assoc]

theorem StepClosed.freeDelivery (h : StepClosed P) (r : Reg) (hs : P s) : P (freeDelivery r s) := h.setRdata _ ((h.wire 0).free _ hs)

theorem StepClosed.plainRead (h : StepClosed P) (i : BusId) (r : Reg) (v : Word) (hs : P s) : P (plainRead i r v s) :=
  closed_ite (h.freeDelivery r hs) (h.setRdata _ hs)

theorem StepClosed.primitiveRead (h : StepClosed P) {i : BusId} {r : Reg} {x : Instr} {t : State} (hs : P s)
    (e : primitiveRead i r x s = .next t) : P t := by
  obtain ⟨u, h1, h2⟩ := Res.bind_eq_next e
  have hu := h.exec hs h1
  split at h2
  · cases h2; exact h.setRdata _ hu
  · cases h2; exact h.freeDelivery r hu

theorem StepClosed.readReg (h : StepClosed P) {off : Word} {t : State} (hs : P s)
    (e : readReg off s = .next t) : P t := by
  unfold Machine.readReg at e
  split at e
  · cases e
  · split at e
    · cases e
    · cases e; exact h.setRdata _ hs
    · cases e; exact h.setRdata _ hs
    · cases e; exact h.setRdata _ hs
    · cases e; exact h.setRdata _ hs
    · cases e; exact h.setRdata _ hs
    · cases e; exact h.setRdata _ hs
    · cases e; exact h.plainRead _ _ _ hs
    · cases e; exact h.plainRead _ _ _ hs
    · cases e; exact h.plainRead _ _ _ hs
    · exact h.primitiveRead hs e
    · exact h.primitiveRead hs e
    · cases e; exact h.plainRead _ _ _ hs
    · cases e; exact h.plainRead _ _ _ hs

theorem StepClosed.dmaServe (h : StepClosed P) (c : Chan) (hs : P s) : P (dmaServe c s) := by
  unfold Machine.dmaServe
  dsimp only
  split
  · exact hs
  · rename_i i _
    split
    · split
      · exact (h.wire 0).chan _ _ _ ((h.wire i).core _ _ (.writeData _) ((h.wire 0).chan _ _ _ hs))
      · exact hs
      · exact (h.wire 0).chan _ _ _ ((h.wire i).core _ _ .readData (h.store _ _ _ ((h.wire 0).chan _ _ _ hs)))
      · exact hs
    · exact hs

theorem StepClosed.dmaFail (h : StepClosed P) (c : Chan) (hs : P s) : P (dmaFail c s) := by
  unfold Machine.dmaFail
  exact closed_ite ((h.wire 0).chan _ _ _ hs) hs

/-- Every input. -/
theorem StepClosed.runInput (h : StepClosed P) {x : Input} {t : State} (hs : P s)
    (e : runInput x s = .next t) : P t := by
  cases x <;> simp only [Machine.runInput] at e
  case regWrite w off v =>
    split at e
    · exact h.writeReg hs e
    · cases e
  case regRead w off =>
    split at e
    · exact h.readReg hs e
    · cases e
  case memWrite a b =>
    unfold hostStore at e
    split at e
    · cases e
    · cases e; exact h.store _ _ _ hs
  case memRead a =>
    unfold hostLoad at e
    split at e
    · cases e
    · cases e; exact h.setRdata _ hs
  case bus i d => cases e; exact (h.wire i).step _ _ hs
  case dmaServe c => cases e; exact h.dmaServe c hs
  case dmaFail c => cases e; exact h.dmaFail c hs
  case dispatch i => exact (h.wire i).dispatch h.store hs e
  case wake i => cases e; exact (h.wire i).wake hs
  case timeout i => cases e; exact (h.wire i).timeout hs
  case sysReset => cases e; exact h.reset _ hs

/-- The next input of the schedule. -/
theorem StepClosed.nextInput (h : StepClosed P) {t : State} (hs : P s) (e : nextInput s = .next t) : P t := by
  unfold Machine.nextInput at e
  split at e
  · cases e; exact hs
  · exact h.runInput (h.inputs _ _ hs) e

end Sys2Proof.Machine
end

