-- ==== Sys2Proof/Tests/Slice0.lean ====
section
/-! SUPPORT. Slice0.lean: tests, each with its source in 95_test_vectors.md (V<n>, P<n>) or in a rule's example, and
for every obligation with hypotheses a witness of them. -/

namespace Sys2Proof.Tests

open Sys2Proof.Machine

/-! ## Encoding -/

/-- V1 to V6. -/
theorem test_decode_lifecycle :
    decode 2 0x01000000 = .op (.initMaster 0 .int false false 0) ∧
    decode 2 0x01000305 = .op (.initMaster 0 .dma false true 3) ∧
    decode 2 0x01000002 = .op (.initMaster 0 .int true false 0) ∧
    decode 2 0x0201000C = .op (.initSlave 1 .int false true true false 0) ∧
    decode 2 0x02010505 = .op (.initSlave 1 .dma false true false false 5) ∧
    decode 2 0x03000000 = .op (.deinit 0) ∧ decode 2 0x04000000 = .op (.setRate 0) ∧
    decode 2 0x05000000 = .op (.getRate 0) := by decide

/-- V7, V8. -/
theorem test_decode_configuration :
    decode 2 0x06000001 = .op (.setTargetAddr 0 true) ∧ decode 2 0x07010000 = .op (.setOwnAddr 1 false) ∧
    decode 2 0x08000001 = .op (.setCallback 0 true) ∧ decode 2 0x09000000 = .op (.irqEntry 0) ∧
    decode 2 0x09010000 = .op (.irqEntry 1) := by decide

/-- V9, V10. -/
theorem test_decode_master :
    decode 2 0x10000001 = .op (.mSend 0 true) ∧ decode 2 0x10000000 = .op (.mSend 0 false) ∧
    decode 2 0x11000001 = .op (.mRecv 0 true) ∧ decode 2 0x11010000 = .op (.mRecv 1 false) ∧
    decode 2 0x12000001 = .op (.mSendBlk 0 true) ∧ decode 2 0x13000001 = .op (.mRecvBlk 0 true) ∧
    decode 2 0x14000000 = .op (.mAbort 0) ∧ decode 2 0x15000000 = .op (.mGetStatus 0) := by decide

/-- V11, V12. -/
theorem test_decode_slave :
    decode 2 0x20010000 = .op (.sSetTxBuf 1) ∧ decode 2 0x21010000 = .op (.sSetRxBuf 1) ∧
    decode 2 0x22010000 = .op (.sSend 1) ∧ decode 2 0x23010000 = .op (.sRecv 1) ∧
    decode 2 0x24010000 = .op (.sSendBlk 1) ∧ decode 2 0x25010000 = .op (.sRecvBlk 1) ∧
    decode 2 0x26010000 = .op (.sAbort 1) ∧ decode 2 0x27010000 = .op (.sGetStatus 1) := by decide

/-- V13. -/
theorem test_decode_sequencer :
    decode 2 0x30000000 = .op (.seqStart 0) ∧ decode 2 0x31000000 = .op (.seqRstart 0) ∧
    decode 2 0x32000000 = .op (.seqWaitReady 0) ∧ decode 2 0x330000A0 = .op (.seqTxByte 0 0xA0) ∧
    decode 2 0x34000000 = .op (.seqStop 0) ∧ decode 2 0x35000001 = .op (.seqAddress 0 .read) := by decide

/-- V14, V15. -/
theorem test_decode_primitives :
    decode 2 0x40000000 = .op (.pStart 0) ∧ decode 2 0x41000000 = .op (.pRstart 0) ∧
    decode 2 0x42000000 = .op (.pStop 0) ∧ decode 2 0x43000001 = .op (.pSetDir 0 .tx) ∧
    decode 2 0x43000000 = .op (.pSetDir 0 .rx) ∧ decode 2 0x44000001 = .op (.pSetAck 0 .nack) ∧
    decode 2 0x450000A1 = .op (.pWriteData 0 0xA1) ∧ decode 2 0x46000000 = .op (.pReadData 0) ∧
    decode 2 0x47000000 = .op (.pReadLast 0) := by decide

/-- V16 to V18. -/
theorem test_decode_flags_and_dividers :
    decode 2 0x48000004 = .op (.pClearFlag 0 .startf) ∧ decode 2 0x48010008 = .op (.pClearFlag 1 .bnd) ∧
    decode 2 0x49000008 = .op (.pIntEnable 0 .bndie) ∧ decode 2 0x4A000100 = .op (.pIntDisable 0 .stopie) ∧
    decode 2 0x4B000027 = .op (.pSetDiv 0 39 0) ∧ decode 2 0x4B0003C7 = .op (.pSetDiv 0 199 3) ∧
    decode 2 0x4C000000 = .op (.pModuleEnable 0) ∧ decode 2 0x4D000000 = .op (.pModuleDisable 0) ∧
    decode 2 0x4E000000 = .op (.pGetFlags 0) ∧ decode 2 0x4F000003 = .op (.pSetDmareq 0 .tx true) ∧
    decode 2 0x4F000002 = .op (.pSetDmareq 0 .rx true) := by decide

/-- V19. -/
theorem test_decode_illegal :
    decode 2 0x00000000 = .rejected .reservedOpcode ∧ decode 2 0x0A000000 = .rejected .reservedOpcode ∧
    decode 2 0x16000000 = .rejected .reservedOpcode ∧ decode 2 0x28010000 = .rejected .reservedOpcode ∧
    decode 2 0x36000000 = .rejected .reservedOpcode ∧ decode 2 0x50000000 = .rejected .reservedOpcode ∧
    decode 2 0xFF000000 = .rejected .reservedOpcode ∧ decode 2 0x10100001 = .rejected .reservedBits ∧
    decode 2 0x10020001 = .rejected .noSuchInstance ∧ decode 2 0x14000001 = .rejected .undefinedImmBit ∧
    decode 2 0x10000002 = .rejected .undefinedImmBit ∧ decode 2 0x33000100 = .rejected .undefinedImmBit ∧
    decode 2 0x4B001000 = .rejected .undefinedImmBit ∧ decode 2 0x4800000C = .rejected .badFlagMask ∧
    decode 2 0x48000001 = .rejected .badFlagMask ∧ decode 2 0x49000004 = .rejected .badFlagMask ∧
    decode 2 0x48000000 = .rejected .badFlagMask := by decide

/-- WellFormed refuses an instance that does not exist (R103), and so does the decoder of its word. -/
theorem test_ill_formed_instance :
    (Instr.deinit 2).wellFormed 2 = false ∧ (Instr.deinit 1).wellFormed 2 = true ∧
    decode 2 (encode (.deinit 2)) = .rejected .noSuchInstance := by decide

/-- V20 to V23. -/
theorem test_address_bytes :
    ab7 0x50 .write = 0xA0 ∧ ab7 0x50 .read = 0xA1 ∧ ab7 0x00 .write = 0x00 ∧ ab7 0x7F .read = 0xFF ∧
    pfx 0x2A5 .write = 0xF4 ∧ pfx 0x2A5 .read = 0xF5 ∧ lowByte 0x2A5 = 0xA5 ∧ pfx 0x000 .write = 0xF0 ∧
    pfx 0x0FF .read = 0xF1 ∧ pfx 0x100 .write = 0xF2 ∧ pfx 0x3FF .read = 0xF7 ∧ lowByte 0x3FF = 0xFF := by decide

/-- V27. -/
theorem test_address_7bit_matches :
    BusCore.matchAddress { ownaddr := 0x50 } 0xA1 = .some .read ∧
    BusCore.matchAddress { ownaddr := 0x50 } 0xA0 = .some .write ∧
    BusCore.matchAddress { ownaddr := 0x50 } 0xA2 = .none := by decide

/-- V28. -/
theorem test_classify :
    classify 0x20 = .arbitrationLost ∧ classify 0x01 = .error ∧ classify 0x02 = .error ∧ classify 0x04 = .error ∧
    classify 0x08 = .error ∧ classify 0x10 = .receivedNack ∧ classify 0x30 = .arbitrationLost ∧
    classify 0x14 = .error := by decide

/-! ## Small states -/

/-- The parameters of the vectors: 8 MHz, with a step range of four values and 16 channels. -/
def params : Params where
  eBase := 0x40000000
  nInst := 2
  nDma := 16
  clkIn := Vector.replicate 16 8000000
  stepMin := 0
  stepMax := 3
  sampleMin := 0
  sampleMax := 255
  lenMax := 0xFFFFFFF0
  slaveFill := 0xFF
  spinStart := 1
  spinReady := 1
  spinByte := 1
  spinStop := 1

def machine (b : Bus) (polls : List PollDraw := []) (port : Port := {}) : State :=
  { State.reset with params := params, env := { polls := polls, cbs := [.nothing, .nothing] }, port := port
                     mem := [(0x2000, 0x12), (0x2001, 0x34), (0x2002, 0x56)] }.setBus 0 b

def acked : PollDraw := .taken {}
def nacked : PollDraw := .taken { tx := .nacked }
def lost : PollDraw := .taken { tx := .lost }

/-- An initialised, idle master; the device is 0x50. -/
def master : Bus :=
  { role := .master, clk := true, core := { moden := true, mstr := true, sample := 39 }, m := { slaveAddr := 0x50 } }

/-- The core of a master that holds the bus. -/
def held : BusCore := { master.core with busy := true, owner := true, dir := .tx }

/-- A master that kept the bus after a transfer without stop. -/
def owner : Bus := { master with core := held }

/-- A master of a 10-bit device. -/
def master10 : Bus := { master with m := { slaveAddr := 0x2A5, addr10 := true } }

/-- A master in the data phase of a send, a byte completed. -/
def sending (m : MCtx) : Bus :=
  { master with
    core := { held with bnd := true, bndie := true, nackie := true, arbie := true }
    m := { m with slaveAddr := 0x50, idle := false, lastResult := .busy, stopOnCompletion := true }, phase := .data }

/-- A master in the data phase of a receive, a byte completed. -/
def receiving (m : MCtx) : Bus := { sending m with core := { (sending m).core with dir := .rx, data := 0xCC } }

/-- An initialised, idle one-shot slave. -/
def slave : Bus :=
  { role := .slave, clk := true, core := { moden := true, sample := 39, ownaddr := 0x42 } }

/-- A slave in a transfer, a byte completed. -/
def selected (d : Dir) (x : SCtx) : Bus :=
  { slave with
    core :=
      { slave.core with
        busy := true, sel := true, bnd := true, dir := d, srw := d == .tx, data := 0x22, addrie := true, stopie := true
        nackie := true, bndie := true }
    s := { x with inProgress := true, idle := false, lastResult := .busy, curDir := d }, phase := .data }

/-- The part `f` of the next state. -/
def got (r : Res) (f : State → α) : Option α :=
  match r with
  | .next t => .some (f t)
  | .fault _ => .none
  | .refused _ => .none

/-- The refusal, when there is one. -/
def stopOf (r : Res) : Option Refusal :=
  match r with
  | .next _ => .none
  | .fault _ => .none
  | .refused e => .some e

def bufArgs (buf len : Word) : Port := { arg0 := buf, arg1 := len, arg2 := 100 }

/-! ## Lifecycle and configuration -/

/-- V124. -/
theorem test_init_master :
    got (exec (.initMaster 0 .int false false 0) (machine {} [] { arg0 := 100000, arg1 := 0x50 })) (fun t =>
      ((t.bus 0).role, (t.core 0).step, (t.core 0).sample, (t.core 0).statusWord, (t.core 0).mstr)) =
      .some (.master, 0, 39, 0x001, true) := by decide

/-- V122, V123. -/
theorem test_init_master_address_range :
    got (exec (.initMaster 0 .int false false 0) (machine {} [] { arg0 := 1, arg1 := 0x80 })) (·.port.ret) = .some 1 ∧
    got (exec (.initMaster 0 .int true false 0) (machine {} [] { arg0 := 1, arg1 := 0x400 })) (·.port.ret) = .some 1 := by
  decide

/-- V79. -/
theorem test_init_slave_listening :
    got (exec (.initSlave 0 .int false true true false 0) (machine {} [] { arg0 := 100000, arg1 := 0x42 })) (fun t =>
      ((t.core 0).intenWord, (t.core 0).ownaddr, (t.bus 0).phase, (t.s 0).idle)) =
      .some (0x158, 0x42, .idle, true) := by decide

/-- V130: the pending byte is abandoned, the stop is on the wire. -/
theorem test_deinit_aborts :
    got (exec (.deinit 0) (machine (sending { txBuf := .some 0x2001, txRemaining := 1 }) [acked])) (fun t =>
      ((t.bus 0).trace, (t.bus 0).role, (t.core 0).moden, (t.bus 0).clk)) = .some ([.p], .none, false, false) := by
  decide

/-- R403: 400 kHz at 8 MHz. -/
theorem test_set_rate :
    got (exec (.setRate 0) (machine master [] { arg0 := 400000 })) (fun t => ((t.core 0).step, (t.core 0).sample)) =
      .some (0, 9) := by decide

/-- V117. -/
theorem test_set_rate_zero :
    got (exec (.setRate 0) (machine master)) (fun t => (t.port.ret, (t.core 0).sample)) = .some (1, 39) := by decide

/-- R405, R340: 300 kHz at 8 MHz gives sample 12 and 307692 Hz. -/
theorem test_get_rate :
    got (exec (.getRate 0) (machine { master with core := { master.core with sample := 12 } })) (·.port.out0) =
      .some 307692 := by decide

/-- V113, V114, V116 (steps 0 to 3). -/
theorem test_solver :
    solve params 8000000 333333 = .some ⟨0, 11, 0⟩ ∧ solve params 48000000 3400000 = .some ⟨0, 6, 28571⟩ ∧
    solve params 8000000 1000000000 = .some ⟨0, 0, 996000000⟩ := by decide

/-- R333, R330: steps 10 to 15 all give the rate 2; the smaller one stays (log entry 39). -/
theorem test_solver_tie : solve { params with stepMin := 9, stepMax := 15 } 16384 1 = .some ⟨10, 255, 1⟩ := by decide

theorem test_set_target_addr :
    got (exec (.setTargetAddr 0 true) (machine master [] { arg0 := 0x2A5 })) (fun t =>
      ((t.m 0).slaveAddr, (t.m 0).addr10)) = .some (0x2A5, true) := by decide

/-- V126. -/
theorem test_set_own_addr :
    got (exec (.setOwnAddr 0 false) (machine slave [] { arg0 := 0x2B })) (fun t => (t.core 0).ownaddr) = .some 0x2B ∧
    got (exec (.setOwnAddr 0 false) (machine master [] { arg0 := 0x42 })) (·.port.ret) = .some 1 := by decide

/-- V129. -/
theorem test_set_callback :
    got (exec (.setCallback 0 true) (machine (sending {}) [] { arg0 := 0xCAFE })) (fun t => (t.m 0).cb) =
      .some (.some 0xCAFE) := by decide

/-- V133. -/
theorem test_irq_entry_disabled_source :
    got (exec (.irqEntry 0) (machine { master with core := { master.core with bnd := true } })) (fun t =>
      (t.port.ret, (t.core 0).bnd)) = .some (0, true) := by decide

/-! ## Master -/

/-- V48. -/
theorem test_m_send :
    got (exec (.mSend 0 true) (machine master [acked, acked] (bufArgs 0x2000 2))) (fun t =>
      ((t.bus 0).trace, (t.core 0).pend, (t.m 0).txRemaining, (t.bus 0).phase, t.port.ret)) =
      .some ([.s, .w 0xA0 .ack], .txByte 0x12, 1, .data, 0) := by decide

/-- V56. -/
theorem test_m_send_address_nack :
    got (exec (.mSend 0 true) (machine master [acked, nacked] (bufArgs 0x2000 2))) (fun t =>
      ((t.bus 0).trace, (t.m 0).idle, t.port.ret)) = .some ([.s, .w 0xA0 .nack, .p], true, 4) := by decide

/-- V55. -/
theorem test_m_recv_10bit :
    got (exec (.mRecv 0 true) (machine master10 [acked, acked, acked, acked, acked] (bufArgs 0x3000 2))) (fun t =>
      ((t.bus 0).trace, (t.core 0).pend, (t.core 0).acksel)) =
      .some ([.s, .w 0xF4 .ack, .w 0xA5 .ack, .sr, .w 0xF5 .ack], .rxByte, .ack) := by decide

/-- V64. -/
theorem test_m_recv_byte_withheld :
    got (exec (.mRecv 0 true) (machine master [acked, .withheld, acked] (bufArgs 0x3000 2))) (fun t =>
      ((t.bus 0).trace, t.port.ret)) = .some ([.s, .p], 1) := by decide

/-- V92. -/
theorem test_m_send_blk_address_nack :
    got (exec (.mSendBlk 0 true) (machine master [acked, nacked] (bufArgs 0x2000 2))) (fun t =>
      ((t.bus 0).wait, (t.bus 0).sem, (t.m 0).blocking, t.port.ret)) = .some (.none, 1, false, 4) := by decide

/-- P2, step 5. -/
theorem test_m_recv_blk_repeated_start :
    got (exec (.mRecvBlk 0 true) (machine owner [acked, acked] (bufArgs 0x3000 2))) (fun t =>
      ((t.bus 0).trace, (t.bus 0).wait, t.hstat)) = .some ([.sr, .w 0xA1 .ack], .some 100, 1) := by decide

/-- V69. -/
theorem test_m_abort :
    got (exec (.mAbort 0) (machine (sending { txBuf := .some 0x2001, txRemaining := 2 }) [acked])) (fun t =>
      ((t.bus 0).trace, (t.m 0).lastResult, (t.core 0).statusWord, t.dmatrace)) =
      .some ([.p], .aborted, 0x009, [.idle 0]) := by decide

/-- V48. -/
theorem test_m_get_status :
    got (exec (.mGetStatus 0) (machine (sending { txBuf := .some 0x2001, txRemaining := 1 }))) (fun t =>
      (t.port.ret, t.port.out0)) = .some (2, 1) := by decide

/-- V53a, event 3: the second-to-last byte. -/
theorem test_receive_second_to_last :
    got (runInput (.dispatch 0) (machine (receiving { rxBuf := .some 0x3000, rxRemaining := 2, rxCursor := 2 }))) (fun t =>
      ((t.core 0).acksel, (t.core 0).pend, t.load 0x3002)) = .some (.nack, .rxByte, 0xCC) := by decide

/-- V53a, event 4: the last byte. -/
theorem test_receive_last :
    got (runInput (.dispatch 0)
      (machine (receiving { rxBuf := .some 0x3000, rxRemaining := 1, rxCursor := 3 }) [acked])) (fun t =>
      ((t.bus 0).trace, (t.m 0).rxCursor, t.load 0x3003, (t.core 0).dir)) = .some ([.p], 4, 0xCC, .tx) := by decide

/-! ## Slave -/

/-- R281. -/
theorem test_s_set_tx_buf :
    got (exec (.sSetTxBuf 0) (machine slave [] (bufArgs 0x4000 4))) (fun t => ((t.s 0).txBuf, (t.s 0).txRemaining)) =
      .some (.some 0x4000, 4) := by decide

/-- R282: ACKSEL is not touched. -/
theorem test_s_set_rx_buf :
    got (exec (.sSetRxBuf 0) (machine { slave with core := { slave.core with acksel := .nack } } [] (bufArgs 0x5000 8)))
      (fun t => ((t.s 0).rxRemaining, (t.core 0).acksel)) = .some (8, .nack) := by decide

/-- V75. -/
theorem test_s_send :
    got (exec (.sSend 0) (machine slave [] (bufArgs 0x4000 4))) (fun t =>
      ((t.bus 0).phase, (t.core 0).intenWord, (t.s 0).idle)) = .some (.armed, 0x158, false) := by decide

/-- V83. -/
theorem test_s_recv_wrong_role :
    got (exec (.sRecv 0) (machine master [] (bufArgs 0x5000 2))) (·.port.ret) = .some 1 := by decide

/-- V98. -/
theorem test_s_send_blk :
    got (exec (.sSendBlk 0) (machine slave [] (bufArgs 0x4000 4))) (fun t => ((t.bus 0).wait, (t.s 0).blocking)) =
      .some (.some 100, true) := by decide

/-- V97. -/
theorem test_s_recv_blk :
    got (exec (.sRecvBlk 0) (machine slave [] (bufArgs 0x5000 2))) (fun t => ((t.bus 0).wait, (t.s 0).rxRemaining)) =
      .some (.some 100, 2) := by decide

/-- V82. -/
theorem test_s_abort :
    got (exec (.sAbort 0) (machine { selected .rx {} with s := { idle := false } })) (fun t =>
      ((t.s 0).lastResult, (t.core 0).intenWord, (t.bus 0).trace)) = .some (.aborted, 0, []) := by decide

/-- V75. -/
theorem test_s_get_status :
    got (exec (.sGetStatus 0) (machine (selected .tx { txRemaining := 2 }))) (fun t => (t.port.ret, t.port.out0)) =
      .some (2, 2) := by decide

/-- V74: a byte with no room. -/
theorem test_slave_overrun :
    got (runInput (.dispatch 0) (machine (selected .rx { cb := .some 7 }))) (fun t =>
      ((t.s 0).lastResult, (t.bus 0).cbtrace, (t.core 0).bnd)) = .some (.rxOverrun, [⟨0, .error, 7⟩], false) := by decide

/-- V76: a byte with nothing lent. -/
theorem test_slave_underrun :
    got (runInput (.dispatch 0) (machine (selected .tx { cb := .some 7 }))) (fun t =>
      ((t.s 0).lastResult, (t.bus 0).cbtrace, (t.core 0).pend)) =
      .some (.txUnderrun, [⟨0, .txEmpty, 7⟩, ⟨0, .error, 7⟩], .txByte 0xFF) := by decide

/-! ## Sequencer -/

/-- V35, V37. -/
theorem test_seq_start :
    got (exec (.seqStart 0) (machine master [acked])) (fun t => (t.port.ret, (t.core 0).statusWord, (t.bus 0).trace)) =
      .some (0, 0x203, [.s]) ∧
    got (exec (.seqStart 0) (machine master [.withheld])) (fun t => (t.port.ret, (t.core 0).statusWord)) =
      .some (1, 0x001) := by decide

/-- V36, V43. -/
theorem test_seq_rstart :
    got (exec (.seqRstart 0) (machine owner [acked])) (fun t => (t.port.ret, (t.bus 0).trace)) = .some (0, [.sr]) ∧
    got (exec (.seqRstart 0) (machine master)) (·.port.ret) = .some 1 := by decide

/-- R194. -/
theorem test_seq_wait_ready :
    got (exec (.seqWaitReady 0) (machine owner)) (·.port.ret) = .some 0 ∧
    got (exec (.seqWaitReady 0) (machine { owner with core := { held with moden := false } })) (·.port.ret) =
      .some 2 := by decide

/-- V38, V39, V40. -/
theorem test_seq_txbyte :
    got (exec (.seqTxByte 0 0xA0) (machine owner [.withheld])) (fun t => (t.port.ret, (t.core 0).statusWord)) =
      .some (4, 0x203) ∧
    got (exec (.seqTxByte 0 0xA0) (machine owner [nacked])) (fun t => (t.port.ret, (t.core 0).statusWord)) =
      .some (0x10, 0x001) ∧
    got (exec (.seqTxByte 0 0xA0) (machine owner [lost])) (fun t => (t.port.ret, (t.core 0).statusWord, (t.bus 0).trace)) =
      .some (0x20, 0x003, [.x]) := by decide

/-- V41. -/
theorem test_seq_txbyte_wrong_direction :
    got (exec (.seqTxByte 0 0xA0) (machine { owner with core := { held with dir := .rx } })) (fun t =>
      (t.port.ret, (t.bus 0).trace)) = .some (4, []) := by decide

/-- A selected slave transmitter between two bytes, in a transfer no command waits for. -/
def answerable : Bus :=
  { slave with
    core := { slave.core with dir := .tx, busy := true, sel := true, srw := true }, s := { inProgress := true }, phase := .data }

/-- R148, R169: a selected slave transmitter's byte. -/
theorem test_seq_txbyte_selected :
    got (exec (.seqTxByte 0 0xA0) (machine answerable [.taken { ack := .nack }])) (fun t =>
      (t.port.ret, (t.bus 0).trace)) = .some (0x10, [.w 0xA0 .nack]) := by decide

/-- V38, V40. -/
theorem test_seq_stop :
    got (exec (.seqStop 0) (machine owner [acked])) (fun t => (t.port.ret, (t.bus 0).trace)) = .some (0, [.p]) ∧
    got (exec (.seqStop 0) (machine { owner with core := { held with owner := false } })) (·.port.ret) = .some 8 := by
  decide

/-- V45. -/
theorem test_seq_address :
    got (exec (.seqAddress 0 .read) (machine master10 [acked, acked, nacked])) (fun t => (t.port.ret, (t.bus 0).trace)) =
      .some (0x10, [.s, .w 0xF4 .ack, .w 0xA5 .nack, .p]) := by decide

/-! ## Primitives -/

/-- V30, step 1; V31. -/
theorem test_p_start :
    got (exec (.pStart 0) (machine master)) (fun t => (t.core 0).statusWord) = .some 0x000 ∧
    got (exec (.pStart 0) (machine owner)) (fun t => (t.core 0).pend) = .some .none := by decide

/-- R142, V31. -/
theorem test_p_rstart :
    got (exec (.pRstart 0) (machine owner)) (fun t => (t.core 0).pend) = .some .rstart ∧
    got (exec (.pRstart 0) (machine master)) (fun t => (t.core 0).pend) = .some .none := by decide

/-- V30, step 13. -/
theorem test_p_stop : got (exec (.pStop 0) (machine owner)) (fun t => (t.core 0).statusWord) = .some 0x202 := by decide

/-- V30, steps 8 and 9. -/
theorem test_p_set_dir : got (exec (.pSetDir 0 .rx) (machine owner)) (fun t => (t.core 0).dir) = .some .rx := by decide

theorem test_p_set_ack : got (exec (.pSetAck 0 .nack) (machine owner)) (fun t => (t.core 0).acksel) = .some .nack := by
  decide

/-- V30, step 5; V31. -/
theorem test_p_write_data :
    got (exec (.pWriteData 0 0xA1) (machine owner)) (fun t => ((t.core 0).statusWord, (t.core 0).pend)) =
      .some (0x202, .txByte 0xA1) ∧
    got (exec (.pWriteData 0 0xA1) (machine { owner with core := { held with dir := .rx } })) (fun t =>
      ((t.core 0).data, (t.core 0).pend)) = .some (0xA1, .none) := by decide

/-- V30, step 10. -/
theorem test_p_read_data :
    got (exec (.pReadData 0) (machine { owner with core := { held with dir := .rx, data := 0xA1 } })) (fun t =>
      (t.port.out0, (t.core 0).pend)) = .some (0xA1, .rxByte) := by decide

/-- V30, step 12. -/
theorem test_p_read_last :
    got (exec (.pReadLast 0) (machine { owner with core := { held with dir := .rx, data := 0x5A, bnd := true } })) (fun t =>
      (t.port.out0, (t.core 0).statusWord, (t.core 0).dir)) = .some (0x5A, 0x203, .tx) := by decide

/-- V30, step 7. -/
theorem test_p_clear_flag :
    got (exec (.pClearFlag 0 .bnd) (machine { owner with core := { held with bnd := true } })) (fun t =>
      (t.core 0).statusWord) = .some 0x203 := by decide

/-- R151, R152: the words of INTEN (R28). -/
theorem test_p_int_enable :
    got (exec (.pIntEnable 0 .stopie) (machine master)) (fun t => (t.core 0).intenWord) = .some 0x100 := by decide

theorem test_p_int_disable :
    got (exec (.pIntDisable 0 .nackie) (machine { master with core := { master.core with bndie := true, nackie := true } }))
      (fun t => (t.core 0).intenWord) = .some 0x008 := by decide

/-- V32. -/
theorem test_p_set_div :
    got (exec (.pSetDiv 0 200 3) (machine { master with core := { master.core with moden := false } })) (fun t =>
      ((t.core 0).sample, (t.core 0).step)) = .some (200, 3) ∧
    got (exec (.pSetDiv 0 200 3) (machine master)) (fun t => (t.core 0).sample) = .some 39 := by decide

theorem test_p_module_enable :
    got (exec (.pModuleEnable 0) (machine { master with core := { mstr := true } })) (fun t => (t.core 0).statusWord) =
      .some 0x001 := by decide

/-- R155. -/
theorem test_p_module_disable :
    got (exec (.pModuleDisable 0) (machine owner)) (fun t => ((t.core 0).statusWord, (t.bus 0).trace)) = .some (0, []) := by
  decide

/-- R147. -/
theorem test_p_get_flags :
    got (exec (.pGetFlags 0) (machine { owner with core := { held with startf := true } })) (·.port.out0) =
      .some 0x207 := by decide

/-- R156. -/
theorem test_p_set_dmareq :
    got (exec (.pSetDmareq 0 .tx true) (machine master)) (fun t => ((t.core 0).dmatxen, (t.core 0).dmarxen)) =
      .some (true, false) := by decide

/-! ## The wires and the channel -/

/-- V33, V34. -/
theorem test_bus_step_answers :
    got (runInput (.bus 0 { tx := .nacked }) (machine { owner with core := { held with pend := .txByte 0xA0 } })) (fun t =>
      ((t.bus 0).trace, (t.core 0).statusWord)) = .some ([.w 0xA0 .nack, .p], 0x019) ∧
    got (runInput (.bus 0 { tx := .lost }) (machine { owner with core := { held with pend := .txByte 0xA0 } })) (fun t =>
      ((t.bus 0).trace, (t.core 0).statusWord)) = .some ([.x], 0x023) := by decide

/-- V24, V25, V26. -/
theorem test_address_10bit_matches :
    got ((runInput (.bus 0 { remote := .address10 0xF4 0xA5 })
      (machine { slave with core := { slave.core with ownaddr := 0x2A5, addr10 := true } }))) (fun t =>
      ((t.bus 0).trace, (t.core 0).matchAddress 0xF5)) = .some ([.am .write], .some .read) ∧
    got ((runInput (.bus 0 { remote := .address10 0xF4 0xA6 })
      (machine { slave with core := { slave.core with ownaddr := 0x2A5, addr10 := true } }))) (fun t =>
      ((t.bus 0).trace, (t.core 0).matchAddress 0xF5)) = .some ([], .none) := by decide

/-- A master whose channel 3 receives: P4 after step 3. -/
def dmaReceiving : State :=
  (machine
    { master with
      core := { held with dir := .rx, bnd := true, data := 0xA0, dmarxen := true, nackie := true, arbie := true }
      m :=
        { slaveAddr := 0x50, transport := .dma, dmaChannel := 3, rxBuf := .some 0x3000, rxRemaining := 5, idle := false
          lastResult := .busy }
      phase := .data } [acked]).setChan 3
    { src := .data 0, dst := .mem 0x3000, remaining := 3, dir := .dev2mem, active := true, owner := .some 0 }

/-- P4, step 4. -/
theorem test_dma_serves_a_byte :
    got (runInput (.dmaServe 3) dmaReceiving) (fun t =>
      (t.load 0x3000, (t.chan 3).remaining, (t.core 0).statusWord)) = .some (0xA0, 2, 0x202) := by decide

/-- P4, steps 6 and 7. -/
theorem test_dma_status_and_abort :
    got (exec (.mGetStatus 0) dmaReceiving) (·.port.out0) = .some 5 ∧
    got (exec (.mAbort 0) dmaReceiving) (fun t => (t.dmatrace, (t.chan 3).active)) = .some ([.stop 3, .idle 0], false) := by
  decide

/-- V87. -/
theorem test_dma_error :
    got (runInput (.dispatch 0) (dmaReceiving.modChan 3 fun d => { d with active := false, err := true })) (fun t =>
      ((t.m 0).lastResult, t.dmatrace, (t.bus 0).trace)) = .some (.error, [.stop 3, .idle 0], [.p]) := by decide

/-- U1: the host may not read a lent receive buffer. -/
theorem test_lent_buffer_refused :
    got (runInput (.memRead 0x3004)
      (machine (receiving { rxBuf := .some 0x3000, rxRemaining := 5, rxLent := .some ⟨0x3000, 5⟩ }))) (·.port.rdata) =
      .none ∧
    got (runInput (.memRead 0x3005)
      (machine (receiving { rxBuf := .some 0x3000, rxRemaining := 5, rxLent := .some ⟨0x3000, 5⟩ }))) (·.port.rdata) =
      .some 0 := by decide

/-- R490: a slave's started buffer is held until the context is idle, also when another has replaced it; one lent beside a
transfer until it is consumed. -/
theorem test_slave_lends_held :
    got (runInput (.memWrite 0x2000 1) (machine (selected .tx
      { txBuf := .some 0x4000, txRemaining := 1, txLent := .some ⟨0x2000, 1⟩, txSet := .some ⟨0x4000, 1⟩ }))) (·.mem) =
      .none ∧
    got (runInput (.memWrite 0x2000 1) (machine { slave with
      s := { txRemaining := 1, txLent := .some ⟨0x2000, 1⟩, txSet := .some ⟨0x4000, 1⟩, listening := true } }))
      (·.load 0x2000) = .some 1 ∧
    got (runInput (.memWrite 0x4000 1) (machine { slave with
      s := { txRemaining := 1, txSet := .some ⟨0x4000, 1⟩, listening := true } })) (·.mem) = .none := by decide

/-- The codes of the table of R122. -/
theorem test_event_codes :
    Event.endOfTransfer.code = 0 ∧ Event.addressMatch.code = 1 ∧ Event.error.code = 2 ∧ Event.txEmpty.code = 3 := by decide

/-- R28, U5: a store to DATALAST, and one to STATUS that clears no flag, are refused. -/
theorem test_store_of_no_field_refused :
    stopOf (runInput (.regWrite .word 0x40000110 0) (machine owner)) = .some (.notOneField 0x110) ∧
    stopOf (runInput (.regWrite .word 0x40000104 0x083) (machine owner)) = .some (.notOneField 0x104) := by decide

/-- R468: while the clock of the core is off a read of it goes on. -/
theorem test_clock_off_read_goes_on :
    got (runInput (.regRead .word 0x40000100) (machine {})) (fun t => t.env.drawn) = .some 1 := by decide

/-- R104, R476: a store to a core whose clock is off is ERROR, whatever the core still holds. -/
theorem test_clock_off_store_is_error :
    got (runInput (.regWrite .word 0x40000100 0x20D) (machine { core := { addr10 := true } })) (·.port.ret) = .some 1 ∧
    got (runInput (.regWrite .word 0x40000118 0x42) (machine { core := { ownaddr := 0x42 } })) (·.port.ret) = .some 1 := by
  decide

/-- R28: OWNADDR. -/
theorem test_ownaddr_read :
    got (runInput (.regRead .word 0x40000118) (machine slave)) (·.port.rdata) = .some 0x42 := by decide

/-- R28: a store to STATUS clears the flag it writes 1 to. -/
theorem test_status_write_clears :
    got (runInput (.regWrite .word 0x40000104 0x008) (machine { owner with core := { held with bnd := true } })) (fun t =>
      (t.core 0).statusWord) = .some 0x203 := by decide

/-! ## Witnesses: for every clause of every obligation a state and operands that meet its hypotheses -/

theorem next_of_got {r : Res} {f : State → α} {v : α} (h : got r f = .some v) : ∃ t, r = .next t := by
  cases r <;> simp_all [got]

/-- A suspended blocking command. -/
def waiting (b : Bus) : Bus := { b with wait := .some 100, sem := 0 }

/-- A slave that keeps listening, in a transfer. -/
def listener : Bus := selected .rx { listening := true }

/-- A core with a request pending, as owner. -/
def asking (p : Pend) : Bus := { owner with core := { held with pend := p } }

theorem witness_DecodeReadsBackEncode :
    (Instr.pSetDiv 15 255 15).wellFormed 16 = true ∧
    (Instr.initSlave 0 .dma true true true true 255).wellFormed 1 = true := by decide

theorem witness_EveryOperationHasOneWord :
    decode 16 0x4F0F0003 = .op (.pSetDmareq 15 .tx true) := by decide

theorem witness_IllegalWordOnlyWritesRet :
    illegalWord (machine master).params.nInst 0x10020001 = true ∧
    illegalWord (machine master).params.nInst 0x10010001 = false := by decide

theorem witness_StepRunsDecodedCommand :
    (State.pushCommand (machine master) 0x09000000).env.inputs = .regWrite .word 0x40000000 0x09000000 :: [] ∧
    decode (machine master).params.nInst 0x09000000 = .op (.irqEntry 0) := by decide

theorem witness_StepTakesNextInput :
    (machine master).env.inputs = [] ∧
    (State.pushCommand (machine master) 0x09000000).env.inputs = .regWrite .word 0x40000000 0x09000000 :: [] ∧
    decode (machine master).params.nInst 0x10000001 = .op (.mSend 0 true) := by decide

theorem witness_ResetValues : (Instr.deinit 0).isInit = false := by decide

theorem witness_FailedAdmissionOnlyWritesRet :
    (((machine {}).bus 0).role = .none ∧ (Instr.mSend 0 true).isInit = false) ∧
    (((machine slave).bus 0).role ≠ .none ∧ wrongRole (.mSend 0 true) ((machine slave).bus 0).role = true) ∧
    (((machine (waiting master)).bus 0).role ≠ .none ∧ wrongRole (.mSend 0 true) .master = false ∧
      ((machine (waiting master)).bus 0).wait.isSome = true ∧ (Instr.mSend 0 true).whileWaiting = false) ∧
    (((machine (sending {})).bus 0).role ≠ .none ∧ wrongRole (.setRate 0) .master = false ∧
      ((machine (sending {})).bus 0).wait.isSome = false ∧ ((machine (sending {})).ctx 0).idle = false ∧
      (Instr.setRate 0).needsIdle = true) := by decide

theorem witness_BadLengthOnlyWritesRet :
    (machine master [] (bufArgs 0 0)).port.arg1 = 0 ∧ IdleMaster 0 (machine master [] (bufArgs 0 0)) ∧
    (machine master).params.lenMax < (machine master [] (bufArgs 0 0xFFFFFFF1)).port.arg1 ∧
    IdleMaster 0 (machine master [] (bufArgs 0 0xFFFFFFF1)) ∧
    IdleSlave 0 (machine slave [] (bufArgs 0 0)) ∧ IdleSlave 0 (machine slave [] (bufArgs 0 0xFFFFFFF1)) ∧
    ((machine listener [] (bufArgs 0 0)).bus 0).role = .slave := by
  and_intros <;> first | decide | (constructor <;> decide)

theorem witness_MemoryReadsWhatWasWritten :
    Memory.wf [(0, 1), (0xFFFFFFFF, 2)] = true ∧
    (∀ a, memRead [(0, 1), (0xFFFFFFFF, 2)] a = memRead [(0, 1), (0xFFFFFFFF, 2)] a) := ⟨by decide, fun _ => rfl⟩

/-- A master receiving into four bytes of lent memory. -/
def lending : Bus :=
  receiving { rxBuf := .some 0x3000, rxRemaining := 4, rxLent := .some ⟨0x3000, 4⟩, txLent := .some ⟨0x2000, 1⟩ }

theorem machine_bus (b : Bus) (p : List PollDraw) (q : Port) (i : BusId) :
    (machine b p q).bus i = if i = 0 then b else {} := by
  unfold machine
  rw [State.setBus_bus]
  split
  · rfl
  · simp [State.bus, State.reset]

/-- The bytes beside the two ranges held, and the send buffer, which may be read. -/
theorem witness_MemoryReadsWhatWasWritten_host :
    (∀ i, ¬((machine lending).bus i).receiveHeld 0x2FFF ∧ ¬((machine lending).bus i).sendHeld 0x2FFF) ∧
    (∀ i, ¬((machine lending).bus i).receiveHeld 0x3004 ∧ ¬((machine lending).bus i).sendHeld 0x3004) ∧
    (∀ i, ¬((machine lending).bus i).receiveHeld 0x2000) ∧ ((machine lending).bus 0).sendHeld 0x2000 := by
  have h : ∀ (i : BusId) (a : Word), (a = 0x2FFF ∨ a = 0x3004 ∨ a = 0x2000) → ¬((machine lending).bus i).receiveHeld a := by
    intro i a ha
    rw [machine_bus]
    split
    · rintro ⟨l, hr, ⟨-, -, hl⟩ | ⟨hl, -, -⟩⟩
      · cases hl
        rcases ha with rfl | rfl | rfl <;> exact absurd hr (by unfold inRange; decide)
      · exact absurd hl (by decide)
    · rintro ⟨l, -, ⟨hl, -, -⟩ | ⟨hl, -, -⟩⟩
      · exact hl rfl
      · exact absurd hl (by decide)
  have h' : ∀ (i : BusId) (a : Word), (a = 0x2FFF ∨ a = 0x3004) → ¬((machine lending).bus i).sendHeld a := by
    intro i a ha
    rw [machine_bus]
    split
    · rintro ⟨l, hr, ⟨-, -, hl⟩ | ⟨hl, -, -⟩⟩
      · cases hl
        rcases ha with rfl | rfl <;> exact absurd hr (by unfold inRange; decide)
      · exact absurd hl (by decide)
    · rintro ⟨l, -, ⟨hl, -, -⟩ | ⟨hl, -, -⟩⟩
      · exact hl rfl
      · exact absurd hl (by decide)
  exact ⟨fun i => ⟨h i _ (.inl rfl), h' i _ (.inl rfl)⟩, fun i => ⟨h i _ (.inr (.inl rfl)), h' i _ (.inr rfl)⟩,
    fun i => h i _ (.inr (.inr rfl)), ⟨0x2000, 1⟩, by unfold inRange; decide, .inl ⟨by decide, by decide, by decide⟩⟩

/-- A slave whose channel 5 moves its buffer. -/
def moving (done : Bool) : State :=
  (machine (selected .tx
      { transport := .dma, dmaChannel := 5, txBuf := .some 0x2001, txRemaining := 2, unsettled := .some .tx }) [acked]
    (bufArgs 0x4000 4)).setChan 5
    { src := .mem 0x2001, dst := .data 0, remaining := if done then 0 else 2, active := !done, done := done
      owner := .some 0 }

/-- The same in a transfer no command waits for. -/
def movingIdle : State := (moving false).modSX 0 fun x => { x with idle := true }

/-- R361, R354: after a channel error of a slave the byte interrupt serves the rest, with the request off and the count
settled. -/
theorem test_slave_dma_error :
    got (runInput (.dispatch 0)
      (((moving false).modChan 5 fun d => { d with active := false, err := true, remaining := 1 }).modCore 0
        fun c => { c with bndie := false, dmatxen := true })) (fun t =>
      ((t.core 0).bndie, (t.core 0).dmatxen, (t.s 0).lastResult, (t.s 0).txRemaining, (t.s 0).txBuf)) =
      .some (true, false, .error, 1, .some 0x2002) := by decide

/-- R364, R499: the remote master writes to a slave armed to transmit: the byte stays and the bus stalls. -/
theorem test_wrong_way_byte_stalls :
    got (runInput (.dmaServe 5) ((moving false).modCore 0 fun c => { c with srw := false, dmatxen := true })) (fun t =>
      ((t.core 0).bnd, (t.chan 5).remaining)) = .some (true, 2) := by decide

/-- R15, R34: at the stop after an abort no count is settled below 0, and an unset buffer keeps count 0. -/
theorem test_stop_after_abort :
    got (runInput (.dispatch 0)
      ((moving false).setBus 0 { slave with
        core := { slave.core with stopf := true, stopie := true }
        s := { transport := .dma, dmaChannel := 5, listening := true, unsettled := .some .tx } })) (fun t =>
      ((t.s 0).txRemaining, (t.s 0).rxRemaining, (t.chan 5).owner)) = .some (0, 0, .none) := by decide

/-- R366: the settle counts from what the channel has left, also in a buffer lent since. -/
theorem test_settle_counts_in_new_buffer :
    ((slaveDmaSettle 0 ((moving false).modS 0 (·.lendStart .tx 0x4000 10))).s 0).txBuf = .some 0x4008 ∧
    ((slaveDmaSettle 0 ((moving false).modS 0 (·.lendStart .tx 0x4000 10))).s 0).txRemaining = 2 := by decide

/-- R284, R354: a start beside a channel that serves the transfer leaves BNDIE off. -/
theorem test_start_beside_channel :
    got (exec (.sSend 0) movingIdle) (fun t =>
      ((t.core 0).bndie, (t.core 0).stopie)) = .some (false, true) := by decide

/-- R476: DEINIT leaves the channel no completion callback of the instance. -/
theorem test_deinit_releases_channel :
    got (exec (.deinit 0) (moving false)) (fun t => ((t.chan 5).owner, (t.chan 5).remaining, (t.chan 5).active)) =
      .some (.none, 0, false) := by decide

/-- A slave with both buffers lent outside a transfer. -/
def lendingSlave : Bus :=
  { slave with
    s := { txRemaining := 1, txSet := .some ⟨0x3000, 4⟩, rxRemaining := 1, rxSet := .some ⟨0x3000, 4⟩ } }

theorem witness_PortRegisterAccess :
    ((1 : Fin 16).val < (machine owner).params.nInst ∧ ((machine owner).bus 0).role ≠ .none ∧
      ((machine owner).bus 1).role = .none) ∧
    IdleAt 0 (machine owner) ∧
    (((machine (sending {})).ctx 0).idle = false ∧ ((machine (waiting master)).bus 0).wait.isSome = true) ∧
    (0x18, (0x3FF : Word)) ∈ [(0x00, (0xF0F : Word)), (0x04, 0x3FF), (0x08, 0x178), (0x14, 0xFFF), (0x18, 0x3FF)] ∧
    (0x017 : Word) &&& 0xF7F = ((machine owner).core 0).ctrlWord ^^^ 0x010 ∧
    (0xFFFFFE8B : Word) &&& 0x17C = 0x008 ∧
    (0x100 : Word) &&& 0x178 = ((machine owner).core 0).intenWord ^^^ 0x100 := by
  and_intros <;> first | decide | (constructor <;> decide)

theorem witness_RefusalsByName :
    ((⟨0x3000, 4⟩ : Lend).buf.toNat ≤ (0x3003 : Word).toNat ∧
      (0x3003 : Word).toNat < (⟨0x3000, 4⟩ : Lend).buf.toNat + (⟨0x3000, 4⟩ : Lend).len.toNat ∧
      ((machine lending).bus 0).role ≠ .none ∧ ((machine lending).ctx 0).idle = false ∧
      ((machine lending).ctx 0).txLent = .some ⟨0x2000, 1⟩ ∧ ((machine lending).ctx 0).rxLent = .some ⟨0x3000, 4⟩) ∧
    ((machine owner).bus 0).role ≠ .none ∧
    (((machine lendingSlave).bus 0).role = .slave ∧ ((machine lendingSlave).s 0).txRemaining ≠ 0 ∧
      ((machine lendingSlave).s 0).txSet = .some ⟨0x3000, 4⟩ ∧ ((machine lendingSlave).s 0).rxRemaining ≠ 0 ∧
      ((machine lendingSlave).s 0).rxSet = .some ⟨0x3000, 4⟩) ∧
    ((1 : Fin 16).val < (machine owner).params.nInst ∧
      ((0x201 : Word) ^^^ ((machine owner).core 0).ctrlWord) &&& 0xF7F ∉
        [(0 : Word), 0x001, 0x004, 0x008, 0x010, 0x020, 0x040, 0x400, 0x800] ∧
      (0x083 : Word) &&& 0x17C ∉ [(0x004 : Word), 0x008, 0x010, 0x020, 0x040, 0x100] ∧
      ((0x018 : Word) ^^^ ((machine owner).core 0).intenWord) &&& 0x178 ∉
        [(0 : Word), 0x008, 0x010, 0x020, 0x040, 0x100] ∧
      (0x3FF : Word).extractLsb' 0 10 ≠ ((machine owner).core 0).ownaddr) ∧
    ((machine master [] (bufArgs 0xFFFFFFFF 2)).port.arg1 ≠ 0 ∧
      (machine master [] (bufArgs 0xFFFFFFFF 2)).port.arg1 ≤ (machine master).params.lenMax ∧
      2 ^ 32 < (machine master [] (bufArgs 0xFFFFFFFF 2)).port.arg0.toNat + (2 : Word).toNat ∧
      IdleMaster 0 (machine master [] (bufArgs 0xFFFFFFFF 2)) ∧ IdleSlave 0 (machine slave [] (bufArgs 0xFFFFFFFF 2))) ∧
    (((machine {} [] { arg0 := 1 }).bus 0).role = .none ∧ ((machine {} [] { arg0 := 1 }).bus 0).wait = .none ∧
      ¬badConfig (machine {} [] { arg0 := 1 }) .dma false 5 ∧
      channelTaken 0 5 ((machine {} [] { arg0 := 1 }).setBus 1
        { slave with s := { transport := .dma, dmaChannel := 5 } }) = true) ∧
    (Width.byte ≠ .word ∧ ((0x40000102 : Word) - params.eBase).toNat % 4 ≠ 0) ∧
    (((moving false).bus 0).role = .slave ∧ GoodBuffer (moving false) ∧ ((moving false).s 0).transport = .dma ∧
      ((moving false).chan ((moving false).s 0).dmaChannel).active = true ∧
      ((moving false).chan ((moving false).s 0).dmaChannel).owner = .some 0) := by
  and_intros <;> first | decide | (constructor <;> decide) | (unfold badConfig; decide)

/-- R27, R28: a read of CMD, and offsets at which no register is listed: between the port and the first instance, past the last
register of an instance, past the last instance. -/
theorem test_no_register :
    runInput (.regRead .word 0x40000000) (machine owner) = .refused (.writeOnly 0) ∧
    runInput (.regRead .word 0x4000001C) (machine owner) = .fault (.noSuchRegister 0x1C) ∧
    runInput (.regWrite .word 0x4000011C 7) (machine owner) = .fault (.noSuchRegister 0x11C) ∧
    runInput (.regWrite .word 0x40000180 7) (machine owner) = .fault (.noSuchRegister 0x180) := ⟨rfl, rfl, rfl, rfl⟩

/-- A slave with nothing to send whose callback lends the buffer given; its DMA channel is moving bytes. -/
def askingBuffer (l : Lend) : State :=
  let s := (machine (selected .tx { cb := .some 7, transport := .dma, dmaChannel := 5 })).setChan 5
    { src := .mem 0x2001, dst := .data 0, remaining := 1, active := true, owner := .some 0 }
  { s with env := { s.env with cbs := [.setTx l] } }

theorem asks_askingBuffer (l : Lend) : SlaveAsksBuffer 0 (askingBuffer l) :=
  ⟨⟨rfl, rfl, rfl, rfl, rfl, rfl, rfl, rfl, by unfold noDmaEvent; exact fun _ => ⟨rfl, rfl⟩⟩, rfl⟩

theorem witness_RefusalsByName_callback :
    (((askingBuffer ⟨0xFFFFFFFF, 2⟩).s 0).cb = .some 7 ∧
      (askingBuffer ⟨0xFFFFFFFF, 2⟩).drawCb.1 = .setTx ⟨0xFFFFFFFF, 2⟩ ∧
      (2 : Word) ≤ (askingBuffer ⟨0xFFFFFFFF, 2⟩).params.lenMax ∧ 2 ^ 32 < (0xFFFFFFFF : Word).toNat + (2 : Word).toNat ∧
      SlaveAsksBuffer 0 (askingBuffer ⟨0xFFFFFFFF, 2⟩)) ∧
    ((askingBuffer ⟨0x2000, 1⟩).drawCb.1 = .setTx ⟨0x2000, 1⟩ ∧ SlaveAsksBuffer 0 (askingBuffer ⟨0x2000, 1⟩) ∧
      ((askingBuffer ⟨0x2000, 1⟩).s 0).transport = .dma ∧
      ((askingBuffer ⟨0x2000, 1⟩).chan ((askingBuffer ⟨0x2000, 1⟩).s 0).dmaChannel).active = true ∧
      ((askingBuffer ⟨0x2000, 1⟩).chan ((askingBuffer ⟨0x2000, 1⟩).s 0).dmaChannel).owner = .some 0) := by
  and_intros <;> first | exact asks_askingBuffer _ | rfl | decide

theorem witness_RefusalsByName_offsets :
    (0x1C : Word).toNat % 4 = 0 ∧ 0x1C ≤ (0x1C : Word).toNat ∧ (0x1C : Word).toNat < 0x100 ∧
    0x100 + 0x40 * min (machine owner).params.nInst 16 ≤ (0x180 : Word).toNat ∧
    0x1C ≤ ((0x11C : Word).toNat - 0x100) % 0x40 := by decide

/-- A state of P4 with the channel's service next on the schedule. -/
def served : State := dmaReceiving.withInputs [.dmaServe 3]

theorem served_steps : ∃ t, step served = .next t :=
  next_of_got (f := fun t => t.load 0x3000) (v := 0xA0) (by decide)

theorem witness_StepKeepsMemoryForm : served.wf = true ∧ ∃ t, step served = .next t := ⟨by decide, served_steps⟩

theorem witness_StepKeepsOwnership : (∀ i, (served.bus i).core.ok = true) ∧ ∃ t, step served = .next t :=
  ⟨by decide, served_steps⟩

theorem witness_StepKeepsMasterBuffers : (∀ i, (served.bus i).m.ok = true) ∧ ∃ t, step served = .next t :=
  ⟨by decide, served_steps⟩

theorem served_channels : ∀ c, served.chanOk c := by
  intro c
  by_cases h : c = 3
  · subst h
    unfold State.chanOk
    decide
  · have e : served.chan c = {} := by
      refine (State.setChan_chan _ 3 c _).trans ?_
      simp [h, machine, State.setBus, State.chan, State.reset]
    simp [State.chanOk, e, DmaChan.live]

theorem served_owner : ∀ c, served.ownerOk c := by
  intro c i
  by_cases h : c = 3
  · subst h
    revert i
    decide
  · have e : served.chan c = {} := by
      refine (State.setChan_chan _ 3 c _).trans ?_
      simp [h, machine, State.setBus, State.chan, State.reset]
    simp [e]

theorem witness_StepKeepsInv : Inv served ∧ ∃ t, step served = .next t :=
  ⟨⟨by decide, by decide, by decide, by decide, by decide, by decide, by decide, served_owner, served_channels⟩,
    served_steps⟩

theorem witness_InitMasterResult :
    (machine {}).params.wf = true ∧
    (((machine master).bus 0).wait = .none ∧ ((machine master).bus 0).role ≠ .none) ∧
    badConfig (machine {} [] { arg0 := 0 }) .int false 0 ∧
    badConfig (machine {} [] { arg0 := 1, arg1 := 0x80 }) .int false 0 ∧
    badConfig (machine {} [] { arg0 := 1, arg1 := 0x400 }) .int true 0 ∧
    badConfig (machine {} [] { arg0 := 1 }) .dma false 16 ∧
    (((machine {}).bus 0).role = .none ∧ ((machine {}).bus 0).wait = .none ∧
      ¬badConfig (machine {} [] { arg0 := 1, arg1 := 0x7F }) .int false 255 ∧
      ¬badConfig (machine {} [] { arg0 := 1, arg1 := 0x3FF }) .dma true 15 ∧
      channelTaken 0 15 (machine {} [] { arg0 := 1, arg1 := 0x3FF }) = false) := by
  and_intros <;> first | decide | (unfold badConfig; decide)

theorem witness_InitSlaveResult :
    (machine {}).params.wf = true ∧
    (((machine slave).bus 0).wait = .none ∧ ((machine slave).bus 0).role ≠ .none) ∧
    badConfig (machine {} [] { arg0 := 1, arg1 := 0x400 }) .dma true 3 ∧
    (((machine {}).bus 0).role = .none ∧ ((machine {}).bus 0).wait = .none ∧
      ¬badConfig (machine {} [] { arg0 := 1, arg1 := 0x3FF }) .dma true 15 ∧
      channelTaken 0 15 (machine {} [] { arg0 := 1, arg1 := 0x3FF }) = false) := by
  and_intros <;> first | decide | (unfold badConfig; decide)

theorem witness_DeinitResult :
    ((machine {}).bus 0).role = .none ∧
    (((machine (waiting master)).bus 0).role ≠ .none ∧ ((machine (waiting master)).bus 0).wait.isSome = true) ∧
    (((machine (sending {})).bus 0).role = .master ∧ ((machine (sending {})).bus 0).wait = .none) ∧
    (((moving false).bus 0).role = .slave ∧ ((moving false).bus 0).wait = .none) := by decide

theorem witness_RateCommands :
    ((machine {}).bus 0).role = .none ∧
    (((machine (waiting master)).bus 0).role ≠ .none ∧ ((machine (waiting master)).bus 0).wait.isSome = true) ∧
    (((machine (sending {})).bus 0).role ≠ .none ∧ ((machine (sending {})).ctx 0).idle = false) ∧
    ((machine master).params.wf = true ∧ IdleAt 0 (machine master) ∧ (machine master).port.arg0 = 0) ∧
    (IdleAt 0 (machine master [] { arg0 := 0xFFFFFFFF }) ∧
      (machine master [] { arg0 := 0xFFFFFFFF }).port.arg0 ≠ 0) := by
  and_intros <;> first | decide | (constructor <;> decide)

theorem witness_SolverFindsClosestRate : params.wf = true := by decide

theorem witness_SolverErrorBound :
    params.wf = true ∧ solve params 8000000 333333 = .some ⟨0, 11, 0⟩ ∧
    rate 8000000 0 params.sampleMax.toNat ≤ 333333 ∧ 333333 ≤ rate 8000000 0 params.sampleMin.toNat ∧
    params.sampleMin.toNat < params.sampleMax.toNat ∧
    ({ params with sampleMin := 11, sampleMax := 11 } : Params).wf = true ∧
    solve { params with sampleMin := 11, sampleMax := 11 } 8000000 333333 = .some ⟨0, 11, 0⟩ := by decide

theorem witness_SetAddressResult :
    ((machine slave).bus 0).role ≠ .master ∧ ((machine master).bus 0).role ≠ .slave ∧
    (((machine (waiting master)).bus 0).wait.isSome = true ∧ ((machine (waiting master)).bus 0).role = .master) ∧
    (((machine (selected .rx {})).ctx 0).idle = false ∧ ((machine (selected .rx {})).bus 0).role = .slave) ∧
    IdleMaster 0 (machine master [] { arg0 := 0x80 }) ∧ 0x7F < (machine master [] { arg0 := 0x80 }).port.arg0.toNat ∧
    IdleMaster 0 (machine master [] { arg0 := 0x3FF }) ∧
    (machine master [] { arg0 := 0x3FF }).port.arg0.toNat ≤ 0x3FF ∧
    IdleSlave 0 (machine slave [] { arg0 := 0x400 }) ∧ 0x3FF < (machine slave [] { arg0 := 0x400 }).port.arg0.toNat ∧
    IdleSlave 0 (machine slave [] { arg0 := 0x7F }) ∧ (machine slave [] { arg0 := 0x7F }).port.arg0.toNat ≤ 0x7F := by
  and_intros <;> first | decide | (constructor <;> decide)

theorem witness_SetCallbackResult :
    ((machine {}).bus 0).role = .none ∧ ((machine (waiting master)).bus 0).role = .master ∧
    ((machine listener).bus 0).role = .slave := by decide

/-- R480: the reset event, on a machine that has run. -/
theorem test_system_reset :
    got (runInput .sysReset { machine owner [] (bufArgs 0x2000 3) with mem := [(1, 2)], dmatrace := [.stop 0] }) (fun t =>
      ((t.core 0).statusWord, t.port.arg1, t.dmatrace, t.mem)) = .some (0, 0, [], [(1, 2)]) := by decide

theorem witness_IrqEntryRunsOneDispatch :
    ((machine {}).bus 0).role = .none ∧
    (((machine listener).bus 0).role ≠ .none ∧ ∃ t, runInput (.dispatch 0) (machine listener) = .next t) ∧
    ((machine (sending {})).bus 0).role = .master ∧
    (((machine listener).bus 0).role = .slave ∧ ((machine listener).s 0).cb = .none) ∧
    (((machine master).bus 0).role ≠ .none ∧ ((machine master).core 0).irq = false ∧
      ((machine master).chan ((machine master).ctx 0).dmaChannel).owner ≠ .some 0) ∧
    (dmaReceiving.core 0).irq = false ∧ (dmaReceiving.chan (dmaReceiving.ctx 0).dmaChannel).done = false ∧
    (dmaReceiving.chan (dmaReceiving.ctx 0).dmaChannel).err = false := by
  and_intros <;> first | decide | exact next_of_got (f := fun t => (t.s 0).lastResult) (v := .rxOverrun) (by decide)

theorem witness_primitives : IdleAt 0 (machine owner) ∧ IdleAt 0 (machine slave) := by
  and_intros <;> (constructor <;> decide)

theorem witness_PrimitiveDividerAndModule :
    (IdleAt 0 (machine master) ∧ ((machine master).core 0).moden = true) ∧
    (IdleAt 0 (machine { master with core := {} }) ∧ ((machine { master with core := {} }).core 0).moden = false) ∧
    ((machine master).params.sampleMin ≤ 0 ∧ (255 : Byte) ≤ (machine master).params.sampleMax ∧
      (machine master).params.stepMin ≤ 0 ∧ (3 : BitVec 4) ≤ (machine master).params.stepMax) ∧
    ¬(4 : BitVec 4) ≤ (machine master).params.stepMax := by
  and_intros <;> first | decide | (constructor <;> decide)

theorem witness_BusStepCompletesRequest :
    (((machine (asking .rstart)).core 0).moden = true ∧ ((machine (asking .rstart)).core 0).pend = .rstart) ∧
    ((machine (asking .stop)).core 0).pend = .stop ∧
    (((machine { master with core := { master.core with pend := .start } }).core 0).pend = .start ∧
      ((machine { master with core := { master.core with pend := .start } }).core 0).busy = false) ∧
    ((machine { master with core := { master.core with pend := .start, busy := true } }).core 0).busy = true ∧
    (((machine (asking (.txByte 0xFF))).core 0).pend = .txByte 0xFF ∧
      ((machine (asking (.txByte 0xFF))).core 0).owner = true) ∧
    (((machine (asking .rxByte)).core 0).pend = .rxByte ∧ ((machine (asking .rxByte)).core 0).owner = true) ∧
    (((machine { slave with core := { slave.core with sel := true, srw := true, pend := .txByte 1 } }).core 0).pend =
        .txByte 1 ∧
      ((machine { slave with core := { slave.core with sel := true, srw := true, pend := .txByte 1 } }).core 0).owner =
        false ∧ Remote.quiet ≠ .stop) ∧
    ((machine { slave with core := { slave.core with sel := true, srw := true, addrmatch := true } }).core 0).addrmatch =
      true := by decide

theorem witness_BusStepDeliversRemote :
    ((machine {}).core 0).moden = false ∧
    (((machine slave).core 0).moden = true ∧ ((machine slave).core 0).pend = .none ∧
      ((machine slave).core 0).mstr = false ∧ ((machine slave).core 0).addrmatch = false ∧
      ((machine slave).core 0).bnd = false ∧ ((machine slave).core 0).matchAddress 0x85 = .some .read ∧
      ((machine slave).core 0).matchAddress 0x86 = .none) ∧
    BusCore.matchAddress10 { ownaddr := 0x3FF, addr10 := true } 0xF6 0xFF = .some .write ∧
    BusCore.matchAddress10 { ownaddr := 0x3FF, addr10 := true } 0xF6 0xFE = .none ∧
    (((machine { slave with core := { slave.core with sel := true } }).core 0).sel = true ∧
      ((machine { slave with core := { slave.core with sel := true } }).core 0).srw = false ∧
      ((machine { slave with core := { slave.core with sel := true } }).core 0).bnd = false) ∧
    (((machine { slave with core := { slave.core with sel := true, bnd := true, rxnack := true } }).core 0).rxnack =
      true) ∧
    (((machine { master with core := { master.core with busy := true } }).core 0).mstr = true ∧
      ((machine { master with core := { master.core with busy := true } }).core 0).owner = false ∧
      ((machine { master with core := { master.core with busy := true } }).core 0).busy = true) := by decide

/-- R170: a byte that left BND = 1 holds back the stop (log entry 35). -/
theorem test_stop_held_back :
    got (runInput (.bus 0 { remote := .stop })
      (machine { slave with core := { slave.core with sel := true, busy := true, bnd := true } })) (fun t =>
      ((t.bus 0).trace, (t.core 0).stopf, (t.core 0).sel)) = .some ([], false, true) := by decide

/-- The clause of a guard that fails: an address, a byte, a stop, a foreign stop. -/
theorem witness_BusStepDeliversRemote_guards :
    (((machine slave).core 0).moden = true ∧ ((machine slave).core 0).pend = .none ∧ ((machine slave).core 0).mstr = false ∧
      ((machine slave).core 0).sel = false) ∧
    ((machine master).core 0).mstr = true ∧ ((machine master).core 0).busy = false ∧
    (((machine { slave with core := { slave.core with sel := true, bnd := true } }).core 0).bnd = true ∧
      ((machine { slave with core := { slave.core with sel := true, bnd := true } }).core 0).rxnack = false) := by decide

theorem witness_AddressBytesMatchOwnAddress :
    BusCore.addr10 {} = false ∧ BusCore.addr10 { addr10 := true } = true := by decide

/-- A 10-bit slave, selected and not. -/
def slave10 (sel : Bool) : Bus :=
  { slave with
    s := { addr10 := true }
    core := { slave.core with addr10 := true, ownaddr := 0x2A5, busy := sel, sel := sel, sel10 := sel } }

theorem witness_AddressBytesMatchOwnAddress_selection :
    (((machine (slave10 false)).core 0).moden = true ∧ ((machine (slave10 false)).core 0).addr10 = true ∧
      ((machine (slave10 false)).core 0).mstr = false ∧ ((machine (slave10 false)).core 0).pend = .none ∧
      ((machine (slave10 false)).core 0).addrmatch = false ∧ ((machine (slave10 false)).core 0).bnd = false) ∧
    ((machine (slave10 true)).core 0).sel = true ∧ ((machine (slave10 true)).core 0).bnd = false ∧
    pfx 0x2A5 .write = 0xF4 ∧ lowByte 0x2A5 = 0xA5 ∧ pfx 0x2A5 .read = 0xF5 := by decide

/-- R115: the read prefix is answered after the two address bytes, and no more after a stop or another address. -/
theorem test_ten_bit_selection :
    got (runs [.bus 0 { remote := .address10 0xF4 0xA5 }] (machine (slave10 false))) (fun t =>
      (t.core 0).matchAddress 0xF5) = .some (.some .read) ∧
    got (runs [.bus 0 { remote := .stop }] (machine (slave10 true))) (fun t => (t.core 0).matchAddress 0xF5) =
      .some .none ∧
    got (runs [.bus 0 { remote := .address10 0xF4 0xA6 }] (machine (slave10 true))) (fun t =>
      (t.core 0).matchAddress 0xF5) = .some .none := by decide

/-- R115, R506: the first of two address bytes decides on a 7-bit core; a selection left from 10-bit mode is forgotten. -/
theorem test_first_byte_decides :
    got (runs [.bus 0 { remote := .address10 0xF1 0x12 }]
      (machine { slave with core := { slave.core with ownaddr := 0x78 } })) (fun t => ((t.bus 0).trace, (t.core 0).sel)) =
      .some ([.am .read], true) ∧
    got (runs [.bus 0 { remote := .address10 0xF4 0xA5 }]
      (machine { slave10 true with core := { (slave10 true).core with addr10 := false } })) (fun t =>
      ((t.bus 0).trace, (t.core 0).sel10)) = .some ([], false) := by decide

theorem witness_AddressBytesMatchOwnAddress_seven :
    ((machine slave).core 0).moden = true ∧ ((machine slave).core 0).addr10 = false ∧
    ((machine slave).core 0).mstr = false ∧ ((machine slave).core 0).pend = .none ∧
    ((machine slave).core 0).addrmatch = false ∧ ((machine slave).core 0).bnd = false ∧
    ∃ t, runInput (.bus 0 { remote := .address10 0xF4 0xA5 }) (machine slave) = .next t := by
  and_intros <;> first | decide | exact next_of_got (f := fun t => (t.core 0).sel10) (v := false) (by decide)

/-- R115: while selected, its own read prefix is a match of a 10-bit core, whatever follows (log entry 26). -/
theorem test_read_prefix_decides :
    got (runs [.bus 0 { remote := .address10 0xF5 0x12 }] (machine (slave10 true))) (fun t =>
      ((t.bus 0).trace, (t.core 0).sel10)) = .some ([.am .read], true) ∧
    got (runs [.bus 0 { remote := .address10 0xF5 0x12 }] (machine (slave10 false))) (fun t => (t.bus 0).trace) =
      .some [] := by decide

/-- A master whose start is pending on a bus another master holds. -/
def started : Bus := { master with core := { master.core with busy := true, pend := .start } }

/-- A slave whose byte is pending. -/
def answering : Bus :=
  { slave with core := { slave.core with busy := true, sel := true, srw := true, pend := .txByte 1 } }

theorem witness_SequencerStarts :
    (IdleAt 0 (machine master [acked]) ∧ ((machine master [acked]).core 0).moden = true ∧
      ((machine master [acked]).core 0).mstr = true ∧ ((machine master [acked]).core 0).owner = false ∧
      (machine master [acked]).drawPoll.1 = .taken {} ∧ ((machine master [acked]).core 0).busy = false) ∧
    (machine master [.withheld]).drawPoll.1 = .withheld ∧
    (IdleAt 0 (machine owner [acked]) ∧ ((machine owner [acked]).core 0).pend = .none ∧
      ((machine owner [acked]).core 0).owner = true ∧ (machine owner [acked]).drawPoll.1 = .taken {}) ∧
    (IdleAt 0 (machine slave) ∧ ((machine slave).core 0).pend = .none ∧ ((machine slave).core 0).mstr = false) ∧
    (IdleAt 0 (machine (asking .rxByte) [acked]) ∧ ((machine (asking .rxByte) [acked]).core 0).pend ≠ .none ∧
      ((machine (asking .rxByte) [acked]).core 0).owner = true ∧
      (machine (asking .rxByte) [acked]).drawPoll.1 = .taken {} ∧
      ((machine (asking .rxByte) [acked]).core 0).canComplete = true) ∧
    (IdleAt 0 (machine started [acked]) ∧ ((machine started [acked]).core 0).pend ≠ .none ∧
      ((machine started [acked]).core 0).owner = false ∧ ((machine started [acked]).core 0).canComplete = false) := by
  and_intros <;> first | decide | (constructor <;> decide)

theorem witness_SequencerWaitAndStop :
    (IdleAt 0 (machine owner [acked]) ∧ ((machine owner [acked]).core 0).ok = true ∧
      ((machine owner [acked]).core 0).moden = true ∧ ((machine owner [acked]).core 0).pend = .none ∧
      ((machine owner [acked]).core 0).owner = true ∧ (machine owner [acked]).drawPoll.1 = .taken {}) ∧
    (IdleAt 0 (machine { master with core := {} }) ∧ ((machine { master with core := {} }).core 0).ok = true ∧
      ((machine { master with core := {} }).core 0).moden = false ∧
      ((machine { master with core := {} }).core 0).busy = false) ∧
    (IdleAt 0 (machine (asking .rxByte) [.withheld]) ∧ ((machine (asking .rxByte) [.withheld]).core 0).ok = true ∧
      ((machine (asking .rxByte) [.withheld]).core 0).pend ≠ .none ∧
      (machine (asking .rxByte) [.withheld]).drawPoll.1 = .withheld) ∧
    (machine (asking .rxByte) [lost]).drawPoll.1 = .taken { tx := .lost } ∧
    (((machine { master with core := { master.core with busy := true } }).core 0).ok = true ∧
      ((machine { master with core := { master.core with busy := true } }).core 0).owner = false ∧
      ((machine { master with core := { master.core with busy := true } }).core 0).busy = true) ∧
    (IdleAt 0 (machine started [acked]) ∧ ((machine started [acked]).core 0).ok = true ∧
      ((machine started [acked]).core 0).owner = false ∧ ((machine started [acked]).core 0).busy = true ∧
      ((machine started [acked]).core 0).pend = .start) ∧
    (IdleAt 0 (machine answering [acked]) ∧ ((machine answering [acked]).core 0).ok = true ∧
      ((machine answering [acked]).core 0).owner = false ∧ ((machine answering [acked]).core 0).busy = true ∧
      ((machine answering [acked]).core 0).pend ≠ .start ∧ (machine answering [acked]).drawPoll.1 = .taken {}) := by
  and_intros <;> first | decide | (constructor <;> decide)

/-- R190, R192, R193: a request pending from before completes in the poll (log entry 36). -/
theorem test_pending_request_completes :
    got (exec (.seqStart 0) (machine { owner with core := { held with pend := .rstart } } [acked])) (fun t =>
      (t.port.ret, (t.bus 0).trace)) = .some (0, [.sr]) ∧
    got (exec (.seqRstart 0) (machine { master with core := { master.core with pend := .start } } [acked])) (fun t =>
      (t.port.ret, (t.bus 0).trace)) = .some (0, [.s]) := by decide

/-- R195: an ARBLOST left from before ends SEQ_TXBYTE at once (log entry 37). -/
theorem test_stale_arblost :
    got (exec (.seqTxByte 0 0x5A) (machine { master with core := { master.core with arblost := true } } [acked])) (fun t =>
      (t.port.ret, (t.bus 0).trace, (t.core 0).arblost)) = .some (0x20, [], false) := by decide

/-- R195: an RXNACK left from before makes the answer NACK, the byte acknowledged and the bus still owned (log entry 37). -/
theorem test_stale_rxnack :
    got (exec (.seqTxByte 0 0x5A) (machine { owner with core := { held with rxnack := true } } [acked])) (fun t =>
      (t.port.ret, (t.bus 0).trace, (t.core 0).owner)) = .some (0x10, [.w 0x5A .ack], true) := by decide

theorem witness_SequencerByte_stale :
    IdleAt 0 (machine { master with core := { master.core with arblost := true } }) ∧
    ((machine { master with core := { master.core with arblost := true } }).core 0).pend = .none ∧
    ((machine { master with core := { master.core with arblost := true } }).core 0).moden = true ∧
    ((machine { master with core := { master.core with arblost := true } }).core 0).arblost = true := by
  and_intros <;> first | decide | (constructor <;> decide)

theorem witness_SequencerByte :
    (IdleAt 0 (machine { master with core := {} }) ∧ ((machine { master with core := {} }).core 0).pend = .none ∧
      ((machine { master with core := {} }).core 0).moden = false) ∧
    (IdleAt 0 (machine owner [nacked]) ∧ ((machine owner [nacked]).core 0).pend = .none ∧
      ((machine owner [nacked]).core 0).moden = true ∧ ((machine owner [nacked]).core 0).arblost = false ∧
      ((machine owner [nacked]).core 0).rxnack = false ∧ ((machine owner [nacked]).core 0).dir = .tx ∧
      ((machine owner [nacked]).core 0).owner = true ∧ (machine owner [nacked]).drawPoll.1 = .taken { tx := .nacked }) ∧
    (IdleAt 0 (machine answerable [acked]) ∧ ((machine answerable [acked]).core 0).pend = .none ∧
      ((machine answerable [acked]).core 0).moden = true ∧ ((machine answerable [acked]).core 0).arblost = false ∧
      ((machine answerable [acked]).core 0).rxnack = false ∧ ((machine answerable [acked]).core 0).dir = .tx ∧
      ((machine answerable [acked]).core 0).owner = false ∧ ((machine answerable [acked]).core 0).sel = true ∧
      ((machine answerable [acked]).core 0).srw = true ∧ ((machine answerable [acked]).core 0).addrmatch = false ∧
      (machine answerable [.withheld]).drawPoll.1 = .withheld ∧ (machine answerable [acked]).drawPoll.1 = .taken {} ∧
      (machine answerable [.taken { remote := .stop }]).drawPoll.1 = .taken { remote := .stop }) ∧
    ((machine master).core 0).dir = .rx ∧ (machine owner [.withheld]).drawPoll.1 = .withheld ∧
    (machine owner [acked]).drawPoll.1 = .taken {} ∧ (machine owner [lost]).drawPoll.1 = .taken { tx := .lost } := by
  and_intros <;> first | decide | (constructor <;> decide)

/-- Five cooperative polls: the longest address phase. -/
def cooperative : List PollDraw := [acked, acked, acked, acked, acked]

theorem witness_SequencerAddressWire :
    IdleMaster 0 (machine master10 cooperative) ∧ CoreReady ((machine master10 cooperative).core 0) ∧
    ((machine master10 cooperative).core 0).arblost = false ∧ ((machine master10 cooperative).core 0).rxnack = false ∧
    Cooperative (addressWire false 0x2A5 true .read).length (machine master10 cooperative) ∧
    CoreReady ((machine owner cooperative).core 0) := by
  and_intros <;> first | decide | (constructor <;> decide)

/-- The clause of a step that fails: a start, and the second address byte of a 10-bit target. -/
theorem witness_SequencerAddressWire_fails :
    (IdleMaster 0 (machine master10 [.withheld]) ∧ CoreReady ((machine master10 [.withheld]).core 0) ∧
      (addressWire false 0x2A5 true .read)[0]? = .some .s ∧ Cooperative 0 (machine master10 [.withheld]) ∧
      (machine master10 [.withheld]).env.polls[0]? = .some .withheld) ∧
    (IdleMaster 0 (machine master10 [acked, acked, nacked]) ∧ CoreReady ((machine master10 [acked, acked, nacked]).core 0) ∧
      ((machine master10 [acked, acked, nacked]).core 0).arblost = false ∧
      ((machine master10 [acked, acked, nacked]).core 0).rxnack = false ∧
      (addressWire false 0x2A5 true .read)[2]? = .some (.w (lowByte 0x2A5) .ack) ∧
      Cooperative 2 (machine master10 [acked, acked, nacked]) ∧
      (machine master10 [acked, acked, nacked]).env.polls[2]? = .some (.taken { tx := .nacked })) ∧
    (Cooperative 2 (machine master10 [acked, acked, lost]) ∧
      (machine master10 [acked, acked, lost]).env.polls[2]? = .some (.taken { tx := .lost })) ∧
    (Cooperative 2 (machine master10 [acked, acked, .withheld]) ∧
      (machine master10 [acked, acked, .withheld]).env.polls[2]? = .some .withheld) := by
  and_intros <;> first | decide | (constructor <;> decide)

/-- R200, R201, R260 (d): the low address byte refused, lost and withheld. -/
theorem test_address_phase_codes :
    got (exec (.mSend 0 true) (machine master10 [acked, acked, nacked] (bufArgs 0x2000 1))) (·.port.ret) = .some 4 ∧
    got (exec (.mRecv 0 true) (machine master10 [acked, acked, lost] (bufArgs 0x2000 1))) (·.port.ret) = .some 7 ∧
    got (exec (.mSend 0 true) (machine master10 [acked, acked, .withheld, acked] (bufArgs 0x2000 1))) (fun t =>
      (t.port.ret, (t.bus 0).trace)) = .some (1, [.s, .w 0xF4 .ack, .p]) := by decide

theorem witness_SequencerTouchesOnlyTheCore : (Instr.seqAddress 0 .read).isSequencer = true := by decide

/-- A DMA master. -/
def dmaMaster : Bus := { master with m := { slaveAddr := 0x50, transport := .dma, dmaChannel := 3 } }

theorem witness_MasterSendStarts :
    (IdleMaster 0 (machine master10 cooperative (bufArgs 0x2000 1)) ∧
      GoodBuffer (machine master10 cooperative (bufArgs 0x2000 1)) ∧
      CoreReady ((machine master10 cooperative (bufArgs 0x2000 1)).core 0) ∧
      Cooperative (addressWire false 0x2A5 true .write).length (machine master10 cooperative (bufArgs 0x2000 1))) ∧
    (IdleMaster 0 (machine dmaMaster cooperative (bufArgs 0xFFFFFFFE 2)) ∧
      GoodBuffer (machine dmaMaster cooperative (bufArgs 0xFFFFFFFE 2)) ∧
      CoreReady ((machine dmaMaster cooperative (bufArgs 0xFFFFFFFE 2)).core 0) ∧
      Cooperative (addressWire false 0x50 false .write).length
        (machine dmaMaster cooperative (bufArgs 0xFFFFFFFE 2))) := by
  and_intros <;> first | decide | (constructor <;> decide)

theorem witness_MasterReceiveStarts :
    (IdleMaster 0 (machine owner cooperative (bufArgs 0x3000 1)) ∧
      GoodBuffer (machine owner cooperative (bufArgs 0x3000 1)) ∧
      CoreReady ((machine owner cooperative (bufArgs 0x3000 1)).core 0) ∧
      Cooperative (addressWire true 0x50 false .read).length (machine owner cooperative (bufArgs 0x3000 1))) ∧
    (IdleMaster 0 (machine dmaMaster cooperative (bufArgs 0x3000 3)) ∧
      GoodBuffer (machine dmaMaster cooperative (bufArgs 0x3000 3)) ∧
      CoreReady ((machine dmaMaster cooperative (bufArgs 0x3000 3)).core 0) ∧
      Cooperative (addressWire false 0x50 false .read).length (machine dmaMaster cooperative (bufArgs 0x3000 3))) := by
  and_intros <;> first | decide | (constructor <;> decide)

theorem witness_MasterStartRunsOrEnds :
    IdleMaster 0 (machine master [lost] (bufArgs 0x2000 3)) ∧ GoodBuffer (machine master [lost] (bufArgs 0x2000 3)) ∧
    ((machine master [lost] (bufArgs 0x2000 3)).core 0).ok = true ∧
    ((machine master [lost] (bufArgs 0x2000 3)).core 0).mstr = true := by
  and_intros <;> first | decide | (constructor <;> decide)

theorem witness_MasterSendByteEvent :
    (MasterByteEvent 0 (machine (sending { txBuf := .some 0x2001, txRemaining := 1 })) ∧
      ((machine (sending { txBuf := .some 0x2001, txRemaining := 1 })).m 0).txRemaining ≠ 0) ∧
    (MasterByteEvent 0 (machine (sending { txBuf := .some 0x2002 })) ∧
      ((machine (sending { txBuf := .some 0x2002 })).m 0).txBuf = .some 0x2002 ∧
      ((machine (sending { txBuf := .some 0x2002 })).m 0).txRemaining = 0) := by
  and_intros <;> first | decide | (constructor <;> first | decide | (unfold noDmaEvent; decide))

theorem witness_MasterReceiveByteEvent :
    (MasterByteEvent 0 (machine (receiving { rxBuf := .some 0x3000, rxRemaining := 1, rxCursor := 3 })) ∧
      ((machine (receiving { rxBuf := .some 0x3000, rxRemaining := 1, rxCursor := 3 })).m 0).txBuf = .none ∧
      ((machine (receiving { rxBuf := .some 0x3000, rxRemaining := 1, rxCursor := 3 })).m 0).rxBuf = .some 0x3000) ∧
    (MasterByteEvent 0 (machine (receiving { rxBuf := .some 0x3000, rxRemaining := 2 })) ∧
      ((machine (receiving { rxBuf := .some 0x3000, rxRemaining := 2 })).m 0).rxRemaining ≠ 1) := by
  and_intros <;> first | decide | (constructor <;> first | decide | (unfold noDmaEvent; decide))

theorem witness_MasterEndResult :
    (((machine (sending {}) [acked]).bus 0).role = .master ∧ ((machine (sending {}) [acked]).core 0).ok = true ∧
      ((machine (sending {}) [acked]).m 0).stopOnCompletion = true ∧
      ((machine (sending {}) [acked]).core 0).owner = true ∧ (machine (sending {}) [acked]).drawPoll.1 = .taken {}) ∧
    (machine (sending {}) [.withheld]).drawPoll.1 = .withheld ∧ ((machine owner).m 0).stopOnCompletion = false ∧
    (((machine { sending {} with core := { master.core with busy := true } }).core 0).ok = true ∧
      ((machine { sending {} with core := { master.core with busy := true } }).core 0).owner = false ∧
      ((machine { sending {} with core := { master.core with busy := true } }).core 0).busy = true ∧
      ((machine { sending {} with core := { master.core with busy := true } }).core 0).pend = .none) := by
  and_intros <;> decide

/-- A master in a send whose byte was answered as `core` says. -/
def failing (core : BusCore) : State :=
  machine { sending { txBuf := .some 0x2001, txRemaining := 1 } with core := { core with arbie := true, nackie := true } }
    [acked]

/-- P4's transfer after a channel error. -/
def dmaFailed : State := dmaReceiving.modChan 3 fun d => { d with active := false, err := true }

theorem witness_MasterErrorAndLateEvents_late :
    (noDmaEvent 0 (machine { master with core := { master.core with bnd := true, bndie := true } }) ∧
      ((machine { master with core := { master.core with bnd := true, bndie := true } }).bus 0).role = .master ∧
      ((machine { master with core := { master.core with bnd := true, bndie := true } }).m 0).idle = true ∧
      ((machine { master with core := { master.core with bnd := true, bndie := true } }).core 0).irq = true) ∧
    (noDmaEvent 0 (failing { master.core with rxnack := true, stopf := true, stopie := true }) ∧
      ((failing { master.core with rxnack := true, stopf := true, stopie := true }).bus 0).role = .master ∧
      ((failing { master.core with rxnack := true, stopf := true, stopie := true }).m 0).idle = false ∧
      ((failing { master.core with rxnack := true, stopf := true, stopie := true }).core 0).arblost = false ∧
      ((failing { master.core with rxnack := true, stopf := true, stopie := true }).core 0).nackie = true) ∧
    (noDmaEvent 0 (machine { listener with core := { listener.core with arblost := true, arbie := true } }) ∧
      ((machine { listener with core := { listener.core with arblost := true, arbie := true } }).bus 0).role = .slave ∧
      ((machine { listener with core := { listener.core with arblost := true, arbie := true } }).core 0).rxnack = false) := by
  and_intros <;> first | decide | (unfold noDmaEvent; decide)

theorem witness_MasterErrorAndLateEvents :
    (((failing { master.core with busy := true, arblost := true }).bus 0).role = .master ∧
      ((failing { master.core with busy := true, arblost := true }).m 0).idle = false ∧
      ((failing { master.core with busy := true, arblost := true }).core 0).ok = true ∧
      ((failing { master.core with busy := true, arblost := true }).core 0).addrmatch = false ∧
      noDmaEvent 0 (failing { master.core with busy := true, arblost := true }) ∧
      ((failing { master.core with busy := true, arblost := true }).core 0).arblost = true) ∧
    (((failing { master.core with rxnack := true, bnd := true }).core 0).ok = true ∧
      noDmaEvent 0 (failing { master.core with rxnack := true, bnd := true }) ∧
      ((failing { master.core with rxnack := true, bnd := true }).core 0).arblost = false ∧
      ((failing { master.core with rxnack := true, bnd := true }).core 0).rxnack = true) ∧
    ((dmaFailed.m 0).transport = .dma ∧ (dmaFailed.m 0).idle = false ∧ (dmaFailed.core 0).ok = true ∧
      (dmaFailed.chan (dmaFailed.m 0).dmaChannel).owner = .some 0 ∧
      (dmaFailed.chan (dmaFailed.m 0).dmaChannel).err = true ∧ (dmaFailed.core 0).owner = true ∧
      dmaFailed.drawPoll.1 = .taken {}) := by
  and_intros <;> first | decide | (unfold noDmaEvent; decide)

theorem witness_MasterAbortResult :
    ((machine slave).bus 0).role ≠ .master ∧
    (((machine master).bus 0).role = .master ∧ ((machine master).core 0).ok = true ∧
      ((machine master).m 0).idle = true) ∧
    (((machine (sending {}) [acked]).core 0).ok = true ∧ ((machine (sending {}) [acked]).m 0).idle = false ∧
      ((machine (sending {}) [acked]).core 0).owner = true ∧ (machine (sending {}) [acked]).drawPoll.1 = .taken {}) ∧
    (machine (sending {}) [.withheld]).drawPoll.1 = .withheld ∧
    ((failing { master.core with busy := true, arblost := true }).core 0).owner = false := by decide

theorem witness_GetStatusResult :
    (((machine slave).bus 0).role ≠ .master ∧ ((machine master).bus 0).role ≠ .slave) ∧
    (((machine master).bus 0).role = .master ∧ ((machine master).m 0).idle = true) ∧
    (((machine (sending {})).m 0).idle = false ∧ ((machine (sending {})).m 0).transport = .int) ∧
    ((dmaReceiving.m 0).transport = .dma ∧ (dmaReceiving.chan (dmaReceiving.m 0).dmaChannel).owner = .some 0 ∧
      (dmaReceiving.chan (dmaReceiving.m 0).dmaChannel).active = true) ∧
    (((machine slave).bus 0).role = .slave ∧ ((machine slave).s 0).transport = .int) ∧
    (((moving false).bus 0).role = .slave ∧ ((moving false).s 0).transport = .dma ∧
      ((moving false).chan ((moving false).s 0).dmaChannel).owner = .some 0) := by decide

theorem witness_SlaveLendsBuffer :
    ((machine listener [] (bufArgs 0x5000 1)).bus 0).role = .slave ∧ GoodBuffer (machine listener [] (bufArgs 0x5000 1)) ∧
    ((machine listener [] (bufArgs 0x5000 1)).s 0).transport = .int ∧
    GoodBuffer (machine listener [] (bufArgs 0x10 0xFFFFFFF0)) ∧
    (((moving true).bus 0).role = .slave ∧ GoodBuffer (moving true) ∧
      ((moving true).chan ((moving true).s 0).dmaChannel).active = false) := by
  and_intros <;> first | decide | (constructor <;> decide)

theorem witness_SlaveAcceptsTransfer :
    IdleSlave 0 (machine slave [] (bufArgs 0x5000 1)) ∧ GoodBuffer (machine slave [] (bufArgs 0x5000 1)) ∧
    (IdleSlave 0 movingIdle ∧ GoodBuffer movingIdle ∧ (movingIdle.s 0).transport = .dma ∧
      (movingIdle.chan (movingIdle.s 0).dmaChannel).owner = .some 0 ∧
      (movingIdle.chan (movingIdle.s 0).dmaChannel).live = true) := by
  and_intros <;> first | decide | (constructor <;> decide)

theorem witness_SlaveAbortResult :
    ((machine master).bus 0).role ≠ .slave ∧
    (((machine slave).bus 0).role = .slave ∧ ((machine slave).s 0).idle = true ∧
      ((machine slave).s 0).inProgress = false) ∧
    (((machine listener).bus 0).role = .slave ∧ ((machine listener).s 0).inProgress = true) := by decide

/-- A slave in no transfer with a byte event. -/
def stray : State := machine { selected .rx {} with s := {} }

/-- A slave whose byte the remote master refused. -/
def refused : State :=
  machine { selected .tx {} with core := { (selected .tx {}).core with rxnack := true, bndie := false } }

theorem witness_SlaveReceiveByteEvent :
    ((stray.bus 0).role = .slave ∧ (stray.s 0).inProgress = false ∧ (stray.core 0).bnd = true ∧
      (stray.core 0).bndie = true ∧ (stray.core 0).arblost = false ∧ (stray.core 0).stopf = false ∧
      (stray.core 0).addrmatch = false ∧ noDmaEvent 0 stray) ∧
    (SlaveByteEvent 0 (machine (selected .rx { rxBuf := .some 0x5000, rxRemaining := 1 })) ∧
      ((machine (selected .rx { rxBuf := .some 0x5000, rxRemaining := 1 })).s 0).curDir = .rx ∧
      ((machine (selected .rx { rxBuf := .some 0x5000, rxRemaining := 1 })).s 0).rxRemaining ≠ 0) ∧
    (SlaveByteEvent 0 (machine (selected .rx {})) ∧ ((machine (selected .rx {})).s 0).rxRemaining = 0 ∧
      ((machine (selected .rx {})).s 0).cb = .none) ∧
    (SlaveByteEvent 0 (machine (selected .rx { cb := .some 7 })) ∧
      ((machine (selected .rx { cb := .some 7 })).s 0).cb = .some 7 ∧
      (machine (selected .rx { cb := .some 7 })).drawCb.1 = .nothing) := by
  and_intros <;> first | decide | (unfold noDmaEvent; decide) | (constructor <;> first | decide | (unfold noDmaEvent; decide))

/-- A slave with nothing to send whose callback lends one byte. -/
def refilled : State :=
  let s := machine (selected .tx { cb := .some 7 })
  { s with env := { s.env with cbs := [.setTx ⟨0x2000, 1⟩] } }

theorem witness_SlaveTransmitByteEvent :
    ((refused.bus 0).role = .slave ∧ (refused.s 0).inProgress = true ∧ (refused.core 0).rxnack = true ∧
      (refused.core 0).nackie = true ∧ (refused.core 0).arblost = false ∧ (refused.core 0).stopf = false ∧
      (refused.core 0).addrmatch = false ∧ noDmaEvent 0 refused) ∧
    (SlaveByteEvent 0 (machine (selected .tx { txBuf := .some 0x2000, txRemaining := 1 })) ∧
      ((machine (selected .tx { txBuf := .some 0x2000, txRemaining := 1 })).s 0).curDir = .tx ∧
      ((machine (selected .tx { txBuf := .some 0x2000, txRemaining := 1 })).s 0).txRemaining ≠ 0) ∧
    (SlaveByteEvent 0 (machine (selected .tx {})) ∧ ((machine (selected .tx {})).s 0).txRemaining = 0 ∧
      ((machine (selected .tx {})).s 0).cb = .none) ∧
    (SlaveByteEvent 0 (machine (selected .tx { cb := .some 7 })) ∧
      (machine (selected .tx { cb := .some 7 })).drawCb.1 = .nothing ∧
      (machine (selected .tx { cb := .some 7 })).drawCb.2.drawCb.1 = .nothing) ∧
    (SlaveByteEvent 0 refilled ∧ (refilled.s 0).cb = .some 7 ∧ refilled.drawCb.1 = .setTx ⟨0x2000, 1⟩ ∧
      (refilled.s 0).transport = .int ∧ goodLend refilled ⟨0x2000, 1⟩) := by
  and_intros <;> first | decide | (unfold noDmaEvent; decide) | (constructor <;> first | decide | (unfold noDmaEvent; decide))

/-- A slave addressed in direction `read`. -/
def addressed (read : Bool) (x : SCtx) : State :=
  machine
    { slave with
      core := { slave.core with addrmatch := true, addrie := true, srw := read, busy := true, sel := true }, s := x }

/-- A DMA slave addressed with `n` bytes lent in direction `d`. -/
def addressedDma (d : Dir) (n : Word) : State :=
  addressed (d == .tx)
    { transport := .dma, dmaChannel := 5, dmaDir := d, txBuf := .some 0x2000, txRemaining := n, rxBuf := .some 0x5000
      rxRemaining := n }

/-- A DMA slave addressed again, by a repeated start, while its channel is armed. -/
def addressedAgain : State :=
  (addressed true
    { transport := .dma, dmaChannel := 5, txBuf := .some 0x2001, txRemaining := 2, unsettled := .some .tx }).setChan 5
    { src := .mem 0x2001, dst := .data 0, remaining := 1, active := true, owner := .some 0 }

/-- A slave whose callback lends a buffer at the address match. -/
def addressedCalled (d : CbDraw) : State :=
  let s := addressed true { cb := .some 7 }
  { s with env := { s.env with cbs := [d] } }

theorem witness_SlaveAddressMatchOpensTransfer :
    (SlaveMatchEvent 0 (addressed false {}) ∧ calledQuietly 0 (addressed false {}) ∧
      ((addressed false {}).core 0).srw = false) ∧
    (SlaveMatchEvent 0 (addressed true { txBuf := .some 0x2000, txRemaining := 1 }) ∧
      ((addressed true { txBuf := .some 0x2000, txRemaining := 1 }).core 0).srw = true) ∧
    (SlaveMatchEvent 0 (addressed true {}) ∧ ((addressed true {}).s 0).txRemaining = 0) ∧
    (SlaveMatchEvent 0 (addressedDma .tx 2) ∧ calledQuietly 0 (addressedDma .tx 2)) ∧
    SlaveMatchEvent 0 (addressedDma .tx 1) ∧ SlaveMatchEvent 0 (addressedDma .rx 2) ∧
    SlaveMatchEvent 0 (addressedDma .rx 1) ∧
    (SlaveMatchEvent 0 addressedAgain ∧ calledQuietly 0 addressedAgain ∧ (addressedAgain.chan 5).owner = .some 0) ∧
    (calledQuietly 0 (addressedCalled (.setTx ⟨0x2000, 1⟩)) ∧ calledQuietly 0 (addressedCalled (.setRx ⟨0x5000, 1⟩)) ∧
      calledQuietly 0 (addressedCalled .nothing)) := by
  and_intros <;>
    first
    | decide
    | exact ⟨rfl, rfl, rfl, rfl, rfl, rfl, rfl, by unfold noDmaEvent; decide, .inl rfl⟩
    | exact .inl rfl
    | exact .inr (.inl rfl)
    | exact .inr (.inr ⟨⟨0x2000, 1⟩, by unfold goodLend; decide, .inl rfl⟩)
    | exact .inr (.inr ⟨⟨0x5000, 1⟩, by unfold goodLend; decide, .inr rfl⟩)

/-- A slave that has seen the stop. -/
def ended (b : Bus) : State := machine { b with core := { slave.core with stopf := true, stopie := true } }

/-- A DMA slave that has seen the stop while its channel is armed. -/
def endedDma (listening : Bool) : State :=
  (ended (selected .tx
    { transport := .dma, dmaChannel := 5, txBuf := .some 0x2001, txRemaining := 2, unsettled := .some .tx
      listening := listening })).setChan 5
    { src := .mem 0x2001, dst := .data 0, remaining := 1, active := true, owner := .some 0 }

theorem witness_SlaveStopEndsTransfer :
    SlaveStopEvent 0 (ended listener) ∧ ((ended listener).s 0).transport = .int ∧
    (SlaveStopEvent 0 (ended (selected .tx {})) ∧ ((ended (selected .tx {})).s 0).listening = false) ∧
    (SlaveStopEvent 0 (endedDma true) ∧ ((endedDma true).s 0).transport = .dma ∧
      ((endedDma true).chan 5).owner = .some 0) ∧
    SlaveStopEvent 0 (endedDma false) := by
  and_intros <;> first | decide | exact ⟨rfl, rfl, rfl, rfl, rfl, rfl, rfl, by unfold noDmaEvent; decide⟩

theorem witness_SlaveCommandsAddNoSymbol :
    ((machine listener).bus 0).role = .slave ∧ (Instr.sAbort 0).slaveOnly = true ∧ (Instr.sAbort 0).inst = 0 ∧
    (∃ t, exec (.sAbort 0) (machine listener) = .next t) := by
  and_intros <;> first | decide | exact next_of_got (f := fun t => (t.s 0).lastResult) (v := .aborted) (by decide)

theorem witness_DmaServesOneByte :
    ((machine master).chan 255).owner = .none ∧ (dmaReceiving.chan 3).active = true ∧
    ((machine master).chan 3).active = false ∧
    ((dmaReceiving.chan 3).owner = .some 0 ∧ (dmaReceiving.core 0).dreq = true ∧
      (dmaReceiving.chan 3).dir = .dev2mem ∧ (dmaReceiving.chan 3).dst = .mem 0x3000) ∧
    (((moving false).chan 5).owner = .some 0 ∧ ((moving false).chan 5).active = true ∧
      ((moving false).core 0).dreq = false ∧
      (((moving false).modCore 0 fun c => { c with dmatxen := true }).core 0).dreq = true ∧
      ((moving false).core 0).mstr = false ∧ ((moving false).core 0).srw = (((moving false).chan 5).dir == .mem2dev) ∧
      (((moving false).modCore 0 fun c => { c with srw := false }).core 0).srw ≠ (((moving false).chan 5).dir == .mem2dev) ∧
      ((moving false).chan 5).dir = .mem2dev ∧ ((moving false).chan 5).src = .mem 0x2001) := by decide

/-- P4's transfer after the channel has moved its part. -/
def dmaDone (idle : Bool) : State :=
  (dmaReceiving.modChan 3 fun d => { d with active := false, remaining := 0, done := true }).modM 0
    (·.modX fun x => { x with idle := idle })

/-- A DMA slave after a channel error. -/
def slaveFailed (x : SCtx) : State :=
  (machine (selected .tx
    { x with
      transport := .dma, dmaChannel := 5, txBuf := .some 0x2001, txRemaining := 2, unsettled := .some .tx })).setChan 5
    { src := .mem 0x2001, dst := .data 0, remaining := 1, err := true, owner := .some 0 }

theorem witness_DmaCompletionSettlesCounts :
    ((((dmaDone false).chan ((dmaDone false).ctx 0).dmaChannel).owner = .some 0) ∧
      ((dmaDone false).chan ((dmaDone false).ctx 0).dmaChannel).done = true ∧
      ((dmaDone false).chan ((dmaDone false).ctx 0).dmaChannel).err = false ∧
      ((dmaDone false).bus 0).role = .master ∧ ((dmaDone false).m 0).idle = false) ∧
    (((dmaDone true).bus 0).role = .master ∧ ((dmaDone true).m 0).idle = true) ∧
    (((moving true).chan ((moving true).ctx 0).dmaChannel).owner = .some 0 ∧
      ((moving true).chan ((moving true).ctx 0).dmaChannel).done = true ∧ ((moving true).bus 0).role = .slave) ∧
    (((slaveFailed {}).bus 0).role = .slave ∧
      ((slaveFailed {}).chan ((slaveFailed {}).s 0).dmaChannel).owner = .some 0 ∧
      ((slaveFailed {}).chan ((slaveFailed {}).s 0).dmaChannel).err = true ∧ ((slaveFailed {}).s 0).cb = .none) ∧
    (((slaveFailed { cb := .some 7 }).s 0).cb = .some 7 ∧ (slaveFailed { cb := .some 7 }).drawCb.1 = .nothing) := by
  decide

theorem machine_chan (b : Bus) (p : List PollDraw) (q : Port) (c : Chan) : (machine b p q).chan c = {} := by
  simp [machine, State.setBus, State.chan, State.reset]

theorem machine_owner (b : Bus) (p : List PollDraw) (q : Port) : ∀ c, (machine b p q).ownerOk c := by
  intro c i
  simp [machine_chan]

theorem machine_channels (b : Bus) (p : List PollDraw) (q : Port) : ∀ c, (machine b p q).chanOk c := by
  intro c
  simp [State.chanOk, machine_chan, DmaChan.live]

/-- A master whose blocking transfer is in flight. -/
def suspended : State := machine (waiting (sending { txBuf := .some 0x2001, txRemaining := 1, blocking := true })) [acked]

/-- A one-shot slave whose blocking transfer has ended. -/
def posted : State := machine { waiting slave with sem := 1, s := { blocking := true } }

/-- A listening slave, posted, addressed again before its caller is resumed; GET_RATE has answered meanwhile. -/
def postedMatched : State :=
  machine { waiting slave with
    sem := 1, outGiven := true, s := { blocking := true, listening := true }
    core := { slave.core with addrmatch := true, addrie := true, busy := true, sel := true } }

/-- A slave whose stop and next address match are both pending, its caller waiting. -/
def stopAndMatch (listening : Bool) : State :=
  machine
    { waiting slave with
      phase := .data
      s := { listening := listening, inProgress := true, idle := false, blocking := true, cb := .some 7, lastResult := .rxOverrun }
      core :=
        { slave.core with
          stopf := true, stopie := true, addrmatch := true, addrie := true, nackie := true, bndie := true, busy := true
          sel := true } }

/-- A slave whose last byte the remote master refused before it stopped. -/
def refusedThenStopped : State :=
  (stopAndMatch true).modCore 0 fun c => { c with bnd := true, rxnack := true, addrmatch := false }

/-- R388, R390, R474: the next match waits for the wake, which delivers the result of the transfer that ended (log entry 29). -/
theorem test_match_waits_for_wake :
    got (runInput (.dispatch 0) postedMatched) (fun t => ((t.bus 0).wait, (t.s 0).inProgress, (t.core 0).addrmatch)) =
      .some (.some 100, false, true) ∧
    got (runs [.dispatch 0, .wake 0, .dispatch 0] postedMatched) (fun t =>
      (t.port.ret, (t.s 0).inProgress, (t.core 0).addrmatch)) = .some (0, true, false) ∧
    got (runs [.dispatch 0, .wake 0] (stopAndMatch true)) (fun t => (t.port.ret, (t.s 0).inProgress)) = .some (6, false) := by
  decide

/-- R300: a stop with no transfer in progress ends what was accepted since the abort (log entry 40). -/
theorem test_stop_with_no_transfer :
    got (runInput (.dispatch 0)
      (machine { slave with
        phase := .armed
        s := { idle := false, lastResult := .busy, rxBuf := .some 0x5000, rxRemaining := 4 }
        core := { slave.core with stopf := true, stopie := true } })) (fun t =>
      ((t.s 0).lastResult, (t.s 0).idle, (t.bus 0).phase)) = .some (.success, true, .idle) := by decide

/-- A slave whose stop and next address match are both pending, without a waiting caller. -/
def stopAndMatchAlone : State := (stopAndMatch true).setBus 0 { (stopAndMatch true).bus 0 with wait := .none }

/-- R287: a stop and the next match pending together: the old transfer ends before the new one begins. -/
theorem test_stop_before_match :
    got (runInput (.dispatch 0) stopAndMatchAlone) (fun t => ((t.s 0).inProgress, (t.s 0).idle, (t.s 0).lastResult)) =
      .some (true, true, .busy) ∧
    got (runInput (.dispatch 0) stopAndMatchAlone) (fun t => ((t.bus 0).cbtrace.map (·.event))) =
      .some [.endOfTransfer, .addressMatch] ∧
    got (runInput (.dispatch 0) (stopAndMatch false)) (fun t => ((t.core 0).addrmatch, (t.bus 0).sem)) =
      .some (true, 1) := by decide

/-- R411: the resume overwrites OUT0 of an operation admitted meanwhile, and else leaves it. -/
theorem test_resume_overwrites_out0 :
    got (runInput (.wake 0) postedMatched) (fun t => (t.env.drawn, (t.bus 0).outGiven)) = .some (1, false) ∧
    got (runInput (.wake 0) posted) (fun t => (t.env.drawn, t.port.out0)) = .some (0, 0) ∧
    got (exec (.getRate 0) posted) (fun t => (t.bus 0).outGiven) = .some true := by decide

theorem suspended_inv : Inv suspended :=
  ⟨by decide, by decide, by decide, by decide, by decide, by decide, by decide, machine_owner _ _ _,
    machine_channels _ _ _⟩

theorem posted_inv : Inv posted :=
  ⟨by decide, by decide, by decide, by decide, by decide, by decide, by decide, machine_owner _ _ _,
    machine_channels _ _ _⟩

theorem postedMatched_inv : Inv postedMatched :=
  ⟨by decide, by decide, by decide, by decide, by decide, by decide, by decide, machine_owner _ _ _,
    machine_channels _ _ _⟩

/-- The clause of a listening slave with no caller posted. -/
theorem witness_SlaveStopEndsTransfer_match :
    (stopAndMatchAlone.bus 0).role = .slave ∧ (stopAndMatchAlone.core 0).arblost = false ∧ noDmaEvent 0 stopAndMatchAlone ∧
    (stopAndMatchAlone.core 0).bnd = false ∧ (stopAndMatchAlone.core 0).rxnack = false ∧
    (stopAndMatchAlone.core 0).stopf = true ∧ (stopAndMatchAlone.core 0).stopie = true ∧
    (stopAndMatchAlone.core 0).addrmatch = true ∧ (stopAndMatchAlone.core 0).addrie = true ∧
    (stopAndMatchAlone.s 0).listening = true ∧
    got (runInput (.dispatch 0) (stopAndMatchAlone.withEvents 0 true false)) (fun u => (u.bus 0).wait) = .some .none := by
  and_intros <;> first | decide | (unfold noDmaEvent; decide)

/-- The clauses of events pending together. -/
theorem witness_SlaveStopEndsTransfer_order :
    (((stopAndMatch true).bus 0).role = .slave ∧ ((stopAndMatch true).core 0).arblost = false ∧
      noDmaEvent 0 (stopAndMatch true) ∧ ((stopAndMatch true).core 0).bnd = false ∧
      ((stopAndMatch true).core 0).rxnack = false ∧ ((stopAndMatch true).core 0).stopf = true ∧
      ((stopAndMatch true).core 0).stopie = true ∧ ((stopAndMatch true).core 0).addrmatch = true ∧
      ((stopAndMatch true).s 0).listening = true ∧ ((stopAndMatch true).core 0).addrie = true) ∧
    (((stopAndMatch false).bus 0).role = .slave ∧ noDmaEvent 0 (stopAndMatch false) ∧
      ((stopAndMatch false).s 0).listening = false) ∧
    (refusedThenStopped.bus 0).role = .slave ∧ (refusedThenStopped.core 0).arblost = false ∧
    noDmaEvent 0 refusedThenStopped ∧ (refusedThenStopped.core 0).rxnack = true ∧
    (refusedThenStopped.core 0).nackie = true ∧
    ∃ u, runInput (.dispatch 0) (refusedThenStopped.withEvents 0 false false) = .next u := by
  and_intros <;>
    first
    | decide
    | (unfold noDmaEvent; decide)
    | exact next_of_got (f := fun t => (t.core 0).rxnack) (v := false) (by decide)

/-- The clause of an address match that waits for the wake. -/
theorem witness_BlockingResumes_match :
    (postedMatched.bus 0).role = .slave ∧ (postedMatched.bus 0).wait.isSome = true ∧ (postedMatched.bus 0).sem ≠ 0 ∧
    (postedMatched.core 0).addrmatch = true ∧ (postedMatched.core 0).bnd = false ∧ (postedMatched.core 0).rxnack = false ∧
    (postedMatched.core 0).stopf = false ∧ (postedMatched.core 0).arblost = false ∧ noDmaEvent 0 postedMatched := by
  and_intros <;> first | decide | (unfold noDmaEvent; decide)

/-- The clauses of a dispatch and an operation beside a suspended caller. -/
theorem witness_BlockingResumes_suspended :
    (∃ t, runInput (.dispatch 0) postedMatched = .next t) ∧
    (Inv posted ∧ (posted.bus 0).wait.isSome = true ∧ (posted.bus 0).sem ≠ 0 ∧ (posted.s 0).listening = false ∧
      ∃ t, runInput (.dispatch 0) posted = .next t) ∧
    (Inv postedMatched ∧ (postedMatched.s 0).inProgress = false ∧ (postedMatched.bus 0).outGiven = true) ∧
    ∃ t, exec (.sGetStatus 0) postedMatched = .next t := by
  and_intros <;>
    first
    | decide
    | exact posted_inv
    | exact postedMatched_inv
    | exact next_of_got (f := fun t => (t.bus 0).sem) (v := 1) (by decide)

theorem witness_BlockingResumes_invariant :
    (Inv suspended ∧ (suspended.bus 0).wait.isSome = true ∧ (suspended.bus 0).sem = 0 ∧
      ∃ t, runInput (.timeout 0) suspended = .next t) ∧
    (Inv posted ∧ (posted.bus 0).wait.isSome = true ∧ (posted.bus 0).sem ≠ 0 ∧ (posted.bus 0).role = .slave ∧
      (posted.s 0).listening = false ∧ ∃ t, runInput (.wake 0) posted = .next t) := by
  and_intros <;>
    first
    | exact suspended_inv
    | exact posted_inv
    | exact next_of_got (f := fun t => t.port.ret) (v := 3) (by decide)
    | exact next_of_got (f := fun t => t.port.ret) (v := 0) (by decide)
    | decide

theorem witness_BlockingResumes :
    ((machine master).bus 0).wait = .none ∧
    (((machine (waiting (sending {}))).bus 0).role = .master ∧ ((machine (waiting (sending {}))).bus 0).wait.isSome = true ∧
      ((machine (waiting (sending {}))).bus 0).sem = 0) ∧
    (((machine { waiting master with sem := 1 }).bus 0).wait.isSome = true ∧
      ((machine { waiting master with sem := 1 }).bus 0).sem ≠ 0) ∧
    (((machine (waiting listener)).bus 0).role = .slave ∧ ((machine (waiting listener)).bus 0).sem = 0) ∧
    (((machine { waiting slave with sem := 1 }).bus 0).role = .slave ∧
      ((machine { waiting slave with sem := 1 }).bus 0).sem ≠ 0) := by decide

theorem witness_OperationFrame : ∃ t, exec (.mSend 0 true) (machine master cooperative (bufArgs 0x2000 2)) = .next t :=
  next_of_got (f := fun t => t.port.ret) (v := 0) (by decide)

end Sys2Proof.Tests
end

/-! # The proofs of the family 00_scope.md: the form of buffer memory (R7, R13, R80, R94, R490) -/

namespace Sys2Proof.Machine

/-! ## What is kept by every step that reads the parameters and buffer memory only -/

section ParamsAndMemory

variable {P : State → Prop} (hP : ∀ s t : State, t.params = s.params → t.mem = s.mem → P s → P t)
include hP

/-- No update of the engine writes the parameters or buffer memory, but for a store of its own. -/
theorem engineClosed_of_params_mem (i : BusId) : EngineClosed i P where
  core s _ _ := hP s _ rfl rfl
  master s _ := hP s _ rfl rfl
  slave s _ := hP s _ rfl rfl
  phase s _ := hP s _ rfl rfl
  sem s _ := hP s _ rfl rfl
  wait s _ := hP s _ rfl rfl
  notify s _ := hP s _ rfl rfl
  chan s _ _ := hP s _ rfl rfl
  log s _ := hP s _ rfl rfl
  port s _ := hP s _ rfl rfl
  cb s := by
    unfold State.drawCb
    split
    · exact hP s _ rfl rfl
    · exact hP s _ rfl rfl
  free s := hP s _ rfl rfl
  given s _ := hP s _ rfl rfl

theorem wireClosed_of_params_mem (i : BusId) : WireClosed i P where
  toEngineClosed := engineClosed_of_params_mem hP i
  step s _ := hP s _ rfl rfl
  draw s := hP s _ (SeqOnly.drawPoll i s).params (SeqOnly.drawPoll i s).mem

theorem lifeClosed_of_params_mem (i : BusId) : LifeClosed i P where
  init s _ _ _ _ _ _ _ := hP s _ rfl rfl
  deinit s := hP s _ rfl rfl

/-- A property of the parameters and of memory is kept by every step once it is kept by a store. -/
theorem stepClosed_of_params_mem (hstore : StoreClosed P) : StepClosed P where
  wire := wireClosed_of_params_mem hP
  life := lifeClosed_of_params_mem hP
  store := hstore
  inputs s _ := hP s _ rfl rfl
  reset s := hP s _ rfl rfl

end ParamsAndMemory

/-- The parameters are `p`, and memory is canonical. -/
def MemoryForm (p : Params) (s : State) : Prop := s.params = p ∧ Memory.wf s.mem = true

theorem State.wf_iff (s : State) : s.wf = true ↔ s.params.wf = true ∧ Memory.wf s.mem = true := by
  simp [State.wf]

theorem MemoryForm.storeClosed (p : Params) : StoreClosed (MemoryForm p) := by
  rintro s a b ⟨hp, hm⟩
  exact ⟨hp, memWrite_wf s.mem a.toNat b hm⟩

theorem MemoryForm.stepClosed (p : Params) : StepClosed (MemoryForm p) :=
  stepClosed_of_params_mem (fun _ _ hp hm h => ⟨hp.trans h.1, (congrArg Memory.wf hm).trans h.2⟩) (storeClosed p)

/-- Settles O14: of all updates only a store writes memory, and it keeps the canonical form; none writes the parameters. -/
theorem stepKeepsMemoryForm : Obligations.StepKeepsMemoryForm := by
  unfold Obligations.StepKeepsMemoryForm
  intro s t hs ht
  obtain ⟨hparams, hmem⟩ := (State.wf_iff s).mp hs
  obtain ⟨hp, hm⟩ := (MemoryForm.stepClosed s.params).nextInput ⟨rfl, hmem⟩ ht
  exact ⟨(State.wf_iff t).mpr ⟨hp ▸ hparams, hm⟩, hp⟩

/-! ## Canonical memories are told apart by what they read as -/

theorem Memory.wf_cons (k : Nat) (u : Byte) (m : List Host.Cell) :
    Memory.wf ((k, u) :: m) = true ↔
      u ≠ unlistedByte ∧ m.all (fun c => decide (k < c.1)) = true ∧ Memory.wf m = true := by
  simp only [Memory.wf, Bool.and_eq_true, bne_iff_ne, and_assoc]

theorem memRead_head (k : Nat) (u : Byte) (m : List Host.Cell) : memRead ((k, u) :: m) k = u := by simp [memRead]

theorem memRead_tail {a k : Nat} (u : Byte) (m : List Host.Cell) (h : a ≠ k) :
    memRead ((k, u) :: m) a = memRead m a := by
  simp [memRead, h.symm]

/-- Below its first cell a canonical memory has nothing written. -/
theorem memRead_before_head {j k : Nat} {u : Byte} {m : List Host.Cell} (h : Memory.wf ((k, u) :: m) = true)
    (hjk : j < k) : memRead ((k, u) :: m) j = unlistedByte := by
  obtain ⟨-, habove, -⟩ := (Memory.wf_cons k u m).mp h
  rw [memRead_tail u m (Nat.ne_of_lt hjk)]
  exact memRead_above (all_above_trans (Nat.le_of_lt hjk) habove)

/-- A canonical memory that reads as another does at its first cell begins no earlier. -/
theorem Memory.head_le_head {j k : Nat} {v u : Byte} {m n : List Host.Cell} (hm : Memory.wf ((j, v) :: m) = true)
    (hn : Memory.wf ((k, u) :: n) = true) (h : memRead ((j, v) :: m) j = memRead ((k, u) :: n) j) : k ≤ j := by
  obtain ⟨hv, -, -⟩ := (Memory.wf_cons j v m).mp hm
  refine Nat.le_of_not_lt fun hlt => hv ?_
  rwa [memRead_head, memRead_before_head hn hlt] at h

/-- A canonical memory with a cell does not read as the empty one. -/
theorem Memory.cons_ne_nil_read {k : Nat} {u : Byte} {m : List Host.Cell} (h : Memory.wf ((k, u) :: m) = true) :
    memRead ((k, u) :: m) k ≠ memRead [] k := by
  rw [memRead_head]
  exact ((Memory.wf_cons k u m).mp h).1

/-- Two canonical memories that read alike everywhere are the same list. -/
theorem Memory.ext_of_wf {m n : List Host.Cell} (hm : Memory.wf m = true) (hn : Memory.wf n = true)
    (h : ∀ a, memRead m a = memRead n a) : m = n := by
  induction m generalizing n with
  | nil =>
    cases n with
    | nil => rfl
    | cons d n => exact absurd (h d.1).symm (cons_ne_nil_read hn)
  | cons c m ih =>
    cases n with
    | nil => exact absurd (h c.1) (cons_ne_nil_read hm)
    | cons d n =>
      obtain ⟨j, v⟩ := c
      obtain ⟨k, u⟩ := d
      obtain rfl : j = k := Nat.le_antisymm (head_le_head hn hm (h k).symm) (head_le_head hm hn (h j))
      obtain rfl : v = u := by simpa only [memRead_head] using h j
      obtain ⟨-, hma, hmw⟩ := (wf_cons j v m).mp hm
      obtain ⟨-, hna, hnw⟩ := (wf_cons j v n).mp hn
      have htail : ∀ a, memRead m a = memRead n a := by
        intro a
        by_cases ha : a = j
        · rw [ha, memRead_above hma, memRead_above hna]
        · simpa only [memRead_tail v _ ha] using h a
      rw [ih hmw hnw htail]

theorem memRead_memWrite (m : List Host.Cell) (a b : Nat) (v : Byte) (h : Memory.wf m = true) :
    memRead (memWrite m a v) b = if b = a then v else memRead m b := by
  split
  · rename_i hb
    rw [hb, memRead_memWrite_same m a v h]
  · rename_i hb
    exact memRead_memWrite_ne m v hb

/-! ## The host's own accesses: the ranges tested are the ranges held (R94, R490) -/

theorem covered_iff (l : Option Lend) (a : Word) : covered l a = true ↔ ∃ r, l = .some r ∧ inRange r a := by
  cases l with
  | none => simp [covered]
  | some r => simp [covered, inRange]

/-- The two ways of holding a buffer, each with the test of its own range. -/
theorem exists_inRange_iff (A A' B B' : Prop) (x y : Option Lend) (a : Word) :
    (∃ l : Lend, inRange l a ∧ ((A ∧ A' ∧ x = .some l) ∨ (B ∧ B' ∧ y = .some l))) ↔
      (A ∧ A' ∧ covered x a = true) ∨ (B ∧ B' ∧ covered y a = true) := by
  rw [covered_iff, covered_iff]
  constructor
  · rintro ⟨l, hl, ⟨hA, hA', hx⟩ | ⟨hB, hB', hy⟩⟩
    · exact .inl ⟨hA, hA', l, hx, hl⟩
    · exact .inr ⟨hB, hB', l, hy, hl⟩
  · rintro (⟨hA, hA', l, hx, hl⟩ | ⟨hB, hB', l, hy, hl⟩)
    · exact ⟨l, hl, .inl ⟨hA, hA', hx⟩⟩
    · exact ⟨l, hl, .inr ⟨hB, hB', hy⟩⟩

theorem Bus.holdsRx_iff (b : Bus) (a : Word) : b.holdsRx a = true ↔ b.receiveHeld a := by
  rw [Bus.receiveHeld, exists_inRange_iff]
  cases hr : b.role with
  | none => simp [Bus.holdsRx, hr]
  | master => simp [Bus.holdsRx, b.ctx_master hr, hr]
  | slave => simp [Bus.holdsRx, b.ctx_slave hr, hr]

theorem Bus.holdsTx_iff (b : Bus) (a : Word) : b.holdsTx a = true ↔ b.sendHeld a := by
  rw [Bus.sendHeld, exists_inRange_iff]
  cases hr : b.role with
  | none => simp [Bus.holdsTx, hr]
  | master => simp [Bus.holdsTx, b.ctx_master hr, hr]
  | slave => simp [Bus.holdsTx, b.ctx_slave hr, hr]

theorem State.lentRx_iff (s : State) (a : Word) : s.lentRx a = true ↔ ∃ i, (s.bus i).receiveHeld a := by
  simp [State.lentRx, Bus.holdsRx_iff]

theorem State.lent_iff (s : State) (a : Word) :
    s.lent a = true ↔ (∃ i, (s.bus i).receiveHeld a) ∨ ∃ i, (s.bus i).sendHeld a := by
  simp [State.lent, State.lentRx_iff, Bus.holdsTx_iff]

/-- A byte outside every receive buffer held is delivered. -/
theorem hostLoad_free {s : State} {a : Word} (hrx : ∀ i, ¬(s.bus i).receiveHeld a) :
    hostLoad a s = .next (s.setRdata ((s.load a).setWidth 32)) :=
  if_neg fun h => not_exists.mpr hrx ((s.lentRx_iff a).mp h)

/-- A byte outside every buffer held is stored. -/
theorem hostStore_free {s : State} {a : Word} (hrx : ∀ i, ¬(s.bus i).receiveHeld a) (htx : ∀ i, ¬(s.bus i).sendHeld a)
    (v : Byte) : hostStore a v s = .next (s.store a v) :=
  if_neg fun h => ((s.lent_iff a).mp h).elim (not_exists.mpr hrx) (not_exists.mpr htx)

/-- Settles O10: read-after-write by cases of the write, the canonical form by its first cell, and the host's accesses by the
ranges held. -/
theorem memoryReadsWhatWasWritten : Obligations.MemoryReadsWhatWasWritten := by
  unfold Obligations.MemoryReadsWhatWasWritten
  refine ⟨fun m a b v h => ⟨memRead_memWrite m a b v h, memWrite_wf m a v h⟩, fun m n => Memory.ext_of_wf,
    fun s a v hrx => ⟨hostLoad_free hrx, fun htx => ⟨s.store a v, hostStore_free hrx htx v, rfl, fun hm => ?_⟩⟩⟩
  exact ⟨s.load_store_same a v hm, memWrite_wf s.mem a.toNat v hm, fun b hb => s.load_store_ne v hb⟩

end Sys2Proof.Machine

/-! # The proofs of the family 20_memory.md: what an operation can touch (R75, R90, R473) -/

namespace Sys2Proof.Machine

/-! ## The frame of an operation -/

/-- `t` is `s` but for bus `i`, channel `c`, the byte at `a`, RET and OUT0, `dmatrace` and the draws made. -/
structure OpFrame (i : BusId) (c : Chan) (a : Word) (s t : State) : Prop where
  others : ∀ j, j ≠ i → t.bus j = s.bus j
  chans : ∀ k, k ≠ c → t.chan k = s.chan k
  params : t.params = s.params
  inputs : t.env.inputs = s.env.inputs
  port : t.port = { s.port with ret := t.port.ret, out0 := t.port.out0 }
  loads : ∀ b, b ≠ a → t.load b = s.load b

/-- While bus `i` works it also keeps its role, and stays bound to channel `c`. -/
structure BoundFrame (i : BusId) (c : Chan) (a : Word) (s t : State) : Prop extends OpFrame i c a s t where
  role : (t.bus i).role = (s.bus i).role
  bound : (t.ctx i).dmaChannel = c

variable {i : BusId} {c : Chan} {a : Word} {s₀ s t : State}

/-! ### What keeps the frame -/

theorem OpFrame.refl (i : BusId) (c : Chan) (a : Word) (s : State) : OpFrame i c a s s where
  others _ _ := rfl
  chans _ _ := rfl
  params := rfl
  inputs := rfl
  port := rfl
  loads _ _ := rfl

theorem OpFrame.modBus (h : OpFrame i c a s₀ s) (f : Bus → Bus) : OpFrame i c a s₀ (s.modBus i f) :=
  { h with others := fun j hj => (State.modBus_bus_ne s f hj).trans (h.others j hj) }

theorem OpFrame.modChan (h : OpFrame i c a s₀ s) (f : DmaChan → DmaChan) : OpFrame i c a s₀ (s.modChan c f) :=
  { h with chans := fun k hk => (State.modChan_chan_ne s f hk).trans (h.chans k hk) }

theorem OpFrame.logDma (h : OpFrame i c a s₀ s) (x : DmaCall) : OpFrame i c a s₀ (s.logDma x) := { h with }

theorem OpFrame.store (h : OpFrame i c a s₀ s) (v : Byte) : OpFrame i c a s₀ (s.store a v) :=
  { h with loads := fun b hb => (s.load_store_ne v hb).trans (h.loads b hb) }

theorem OpFrame.drawCb (h : OpFrame i c a s₀ s) : OpFrame i c a s₀ s.drawCb.2 := by
  unfold State.drawCb
  split
  · exact { h with }
  · exact { h with }

theorem OpFrame.setRetWord (h : OpFrame i c a s₀ s) (v : Word) : OpFrame i c a s₀ (s.setRetWord v) :=
  { h with port := by simp only [State.setRetWord]; rw [h.port] }

theorem OpFrame.setRet (h : OpFrame i c a s₀ s) (r : Result) : OpFrame i c a s₀ (s.setRet r) := h.setRetWord r.code

theorem OpFrame.setOut0 (h : OpFrame i c a s₀ s) (v : Word) : OpFrame i c a s₀ (s.setOut0 v) :=
  { h with port := by simp only [State.setOut0]; rw [h.port] }

theorem OpFrame.giveOut0 (h : OpFrame i c a s₀ s) (v : Word) : OpFrame i c a s₀ (s.giveOut0 i v) :=
  (h.setOut0 v).modBus _

theorem OpFrame.seqOnly (h : OpFrame i c a s₀ s) (k : SeqOnly i s t) : OpFrame i c a s₀ t where
  others j hj := (k.others j hj).trans (h.others j hj)
  chans n hn := (congrArg (fun d => d[n.val]) k.dma).trans (h.chans n hn)
  params := k.params.trans h.params
  inputs := k.inputs.trans h.inputs
  port := k.port ▸ h.port
  loads b hb := (State.load_congr k.mem b).trans (h.loads b hb)

/-! ### What keeps the binding -/

theorem Bus.modM_dmaChannel (b : Bus) {f : MCtx → MCtx} (hf : ∀ m, (f m).dmaChannel = m.dmaChannel) :
    (b.modM f).ctx.dmaChannel = b.ctx.dmaChannel := by
  cases hr : b.role <;> simp [Bus.ctx, hr, hf]

theorem Bus.modS_dmaChannel (b : Bus) {f : SCtx → SCtx} (hf : ∀ x, (f x).dmaChannel = x.dmaChannel) :
    (b.modS f).ctx.dmaChannel = b.ctx.dmaChannel := by
  cases hr : b.role <;> simp [Bus.ctx, hr, hf]

/-- The context of a bus is told by its role and its two contexts. -/
theorem Bus.ctx_congr {b d : Bus} (hr : d.role = b.role) (hm : d.m = b.m) (hs : d.s = b.s) : d.ctx = b.ctx := by
  simp only [Bus.ctx, hr, hm, hs]

theorem BoundFrame.refl (i : BusId) (a : Word) (s : State) : BoundFrame i (s.ctx i).dmaChannel a s s :=
  { OpFrame.refl i _ a s with role := rfl, bound := rfl }

/-- An update of the bus that keeps its role and the channel it is bound to. -/
theorem BoundFrame.modBus (h : BoundFrame i c a s₀ s) {f : Bus → Bus} (hr : (f (s.bus i)).role = (s.bus i).role)
    (hc : (f (s.bus i)).ctx.dmaChannel = (s.bus i).ctx.dmaChannel) : BoundFrame i c a s₀ (s.modBus i f) where
  toOpFrame := h.toOpFrame.modBus f
  role := by rw [State.modBus_bus_same]; exact hr.trans h.role
  bound := by rw [State.ctx_eq, State.modBus_bus_same]; exact hc.trans h.bound

/-- An update of the bus that leaves its role and its contexts alone. -/
theorem BoundFrame.modRest (h : BoundFrame i c a s₀ s) {f : Bus → Bus} (hr : (f (s.bus i)).role = (s.bus i).role)
    (hm : (f (s.bus i)).m = (s.bus i).m) (hs : (f (s.bus i)).s = (s.bus i).s) : BoundFrame i c a s₀ (s.modBus i f) :=
  h.modBus hr (by rw [Bus.ctx_congr hr hm hs])

theorem BoundFrame.modCore (h : BoundFrame i c a s₀ s) (f : BusCore → BusCore) : BoundFrame i c a s₀ (s.modCore i f) :=
  h.modRest rfl rfl rfl

theorem BoundFrame.setPhase (h : BoundFrame i c a s₀ s) (p : Phase) : BoundFrame i c a s₀ (s.setPhase i p) :=
  h.modRest rfl rfl rfl

theorem BoundFrame.notify (h : BoundFrame i c a s₀ s) (e : Event) : BoundFrame i c a s₀ (s.notify i e) :=
  h.modRest (Bus.notify_role _ i e) (Bus.notify_m _ i e) (Bus.notify_s _ i e)

theorem BoundFrame.postM (h : BoundFrame i c a s₀ s) : BoundFrame i c a s₀ (s.modBus i .postM) :=
  h.modRest (Bus.postM_role _) (Bus.postM_m _) (Bus.postM_s _)

theorem BoundFrame.postS (h : BoundFrame i c a s₀ s) : BoundFrame i c a s₀ (s.modBus i .postS) :=
  h.modRest (Bus.postS_role _) (Bus.postS_m _) (Bus.postS_s _)

theorem BoundFrame.modM (h : BoundFrame i c a s₀ s) {f : MCtx → MCtx}
    (hf : ∀ m, (f m).dmaChannel = m.dmaChannel := by exact fun _ => rfl) : BoundFrame i c a s₀ (s.modM i f) :=
  h.modBus rfl (Bus.modM_dmaChannel _ hf)

theorem BoundFrame.modS (h : BoundFrame i c a s₀ s) {f : SCtx → SCtx}
    (hf : ∀ x, (f x).dmaChannel = x.dmaChannel := by exact fun _ => rfl) : BoundFrame i c a s₀ (s.modS i f) :=
  h.modBus rfl (Bus.modS_dmaChannel _ hf)

theorem BoundFrame.modChan (h : BoundFrame i c a s₀ s) (f : DmaChan → DmaChan) : BoundFrame i c a s₀ (s.modChan c f) :=
  { h with toOpFrame := h.toOpFrame.modChan f }

theorem BoundFrame.logDma (h : BoundFrame i c a s₀ s) (x : DmaCall) : BoundFrame i c a s₀ (s.logDma x) :=
  { h with toOpFrame := h.toOpFrame.logDma x }

theorem BoundFrame.store (h : BoundFrame i c a s₀ s) (v : Byte) : BoundFrame i c a s₀ (s.store a v) :=
  { h with toOpFrame := h.toOpFrame.store v }

theorem State.drawCb_bus (s : State) (j : BusId) : s.drawCb.2.bus j = s.bus j := by
  unfold State.drawCb
  split <;> rfl

theorem BoundFrame.drawCb (h : BoundFrame i c a s₀ s) : BoundFrame i c a s₀ s.drawCb.2 where
  toOpFrame := h.toOpFrame.drawCb
  role := by rw [State.drawCb_bus]; exact h.role
  bound := by rw [State.ctx_eq, State.drawCb_bus]; exact h.bound

theorem BoundFrame.seqOnly (h : BoundFrame i c a s₀ s) (k : SeqOnly i s t) : BoundFrame i c a s₀ t where
  toOpFrame := h.toOpFrame.seqOnly k
  role := k.role.trans h.role
  bound := by rw [State.ctx_eq, Bus.ctx_congr k.role k.master k.slave]; exact h.bound

theorem BoundFrame.ite {p : Prop} [Decidable p] (hs : BoundFrame i c a s₀ s) (ht : BoundFrame i c a s₀ t) :
    BoundFrame i c a s₀ (if p then s else t) := closed_ite hs ht

/-- The channel a master works with is the one bound. -/
theorem BoundFrame.masterChan (h : BoundFrame i c a s₀ s) (hr : (s₀.bus i).role = .master) : (s.m i).dmaChannel = c := by
  have hb := h.bound
  rwa [State.ctx_eq, Bus.ctx_master _ (h.role.trans hr)] at hb

/-- The channel a slave works with is the one bound. -/
theorem BoundFrame.slaveChan (h : BoundFrame i c a s₀ s) (hr : (s₀.bus i).role = .slave) : (s.s i).dmaChannel = c := by
  have hb := h.bound
  rwa [State.ctx_eq, Bus.ctx_slave _ (h.role.trans hr)] at hb

/-! ### The calls on the channel -/

theorem BoundFrame.dmaStop (h : BoundFrame i c a s₀ s) : BoundFrame i c a s₀ (dmaStop c s) := (h.modChan _).logDma _

theorem BoundFrame.dmaStopIf (h : BoundFrame i c a s₀ s) {x : Xfer} (hx : x.dmaChannel = c) :
    BoundFrame i c a s₀ (dmaStopIf x s) := by
  subst hx
  exact .ite h.dmaStop h

theorem BoundFrame.dmaConfigure (h : BoundFrame i c a s₀ s) (x y : Endpoint) (n : Word) (d : DmaDir) :
    BoundFrame i c a s₀ (dmaConfigure c x y n d s) := (h.modChan _).logDma _

theorem BoundFrame.dmaInstall (h : BoundFrame i c a s₀ s) (j : BusId) : BoundFrame i c a s₀ (dmaInstall c j s) :=
  (h.modChan _).logDma _

theorem BoundFrame.dmaStart (h : BoundFrame i c a s₀ s) : BoundFrame i c a s₀ (dmaStart c s) := (h.modChan _).logDma _

theorem BoundFrame.dmaBulk (h : BoundFrame i c a s₀ s) (x y : Endpoint) (n : Word) (d : DmaDir) (r : Dir) :
    BoundFrame i c a s₀ (dmaBulk i c x y n d r s) :=
  ((((h.modCore _).dmaConfigure x y n d).dmaInstall i).modCore _).dmaStart

/-! ## The master -/

section Master

theorem Xfer.settleResult_dmaChannel (x : Xfer) : x.settleResult.dmaChannel = x.dmaChannel := by
  unfold Xfer.settleResult
  split <;> rfl

theorem Xfer.stopFailed_dmaChannel (x : Xfer) (st : Word) : (x.stopFailed st).dmaChannel = x.dmaChannel := by
  unfold Xfer.stopFailed
  split <;> rfl

theorem Xfer.dmaSettled_dmaChannel (x : Xfer) : x.dmaSettled.dmaChannel = x.dmaChannel := by
  unfold Xfer.dmaSettled
  split <;> rfl

theorem MCtx.begin_dmaChannel (m : MCtx) (d : Dir) (buf len : Word) (stop : Bool) :
    (m.begin d buf len stop).dmaChannel = m.dmaChannel := by
  cases d <;> rfl

theorem BoundFrame.masterIdle (h : BoundFrame i c a s₀ s) : BoundFrame i c a s₀ (masterIdle i s) :=
  (h.modM.logDma _).setPhase _

theorem BoundFrame.masterClose (h : BoundFrame i c a s₀ s) (r : Result) : BoundFrame i c a s₀ (masterClose i r s) :=
  h.modM.masterIdle.postM

theorem BoundFrame.seqStop (h : BoundFrame i c a s₀ s) : BoundFrame i c a s₀ (seqStop i s).2 :=
  h.seqOnly (seqStop_only i s)

theorem BoundFrame.masterEndStop (h : BoundFrame i c a s₀ s) : BoundFrame i c a s₀ (masterEndStop i s) :=
  .ite ((h.setPhase _).seqStop.modM fun m => m.toXfer.stopFailed_dmaChannel _) h

theorem BoundFrame.masterEnd (h : BoundFrame i c a s₀ s) : BoundFrame i c a s₀ (masterEnd i s) := by
  have stopped := (h.modCore .transportDisarm).masterEndStop
  exact (stopped.modM fun m => m.unsetBufs.settleResult_dmaChannel).masterIdle.postM.notify _

theorem BoundFrame.masterSendStep (h : BoundFrame i c a s₀ s) : BoundFrame i c a s₀ (masterSendStep i s) :=
  .ite (h.modM.modCore _) (h.modCore _).masterEnd

theorem BoundFrame.masterStore (h : BoundFrame i c a s₀ s) (ha : bufAddr (s.m i).rxBuf + (s.m i).rxCursor = a) (b : Byte) :
    BoundFrame i c a s₀ (masterStore i b s) := by
  subst ha
  exact (h.store b).modM

theorem BoundFrame.masterRecvStep (h : BoundFrame i c a s₀ s) (ha : bufAddr (s.m i).rxBuf + (s.m i).rxCursor = a) :
    BoundFrame i c a s₀ (masterRecvStep i s) := by
  have hm : ∀ f, (s.modCore i f).m i = s.m i := fun f => by simp [State.m_eq]
  refine .ite ((h.modCore _).masterStore ?_ _).masterEnd ((h.modCore _).masterStore ?_ _)
  · rw [hm]; exact ha
  · rw [hm]; exact ha

theorem BoundFrame.masterByte (h : BoundFrame i c a s₀ s) (ha : bufAddr (s.m i).rxBuf + (s.m i).rxCursor = a) :
    BoundFrame i c a s₀ (masterByte i s) := .ite h.masterSendStep (h.masterRecvStep ha)

theorem BoundFrame.masterDmaDone (h : BoundFrame i c a s₀ s) : BoundFrame i c a s₀ (masterDmaDone i c s) := by
  have taken := h.modChan fun d => { d with done := false }
  exact .ite taken (((taken.modCore _).modM fun m => m.toXfer.dmaSettled_dmaChannel).modCore _)

variable (hr : (s₀.bus i).role = .master)
include hr

theorem BoundFrame.masterErrorExit (h : BoundFrame i c a s₀ s) (r : Result) :
    BoundFrame i c a s₀ (masterErrorExit i r s) := by
  have stopped := ((h.setPhase .error).modCore .transportDisarm).dmaStopIf (h.masterChan hr)
  exact ((BoundFrame.ite stopped.seqStop stopped).masterClose r).notify _

theorem BoundFrame.masterAbort (h : BoundFrame i c a s₀ s) : BoundFrame i c a s₀ (masterAbort i s) := by
  have stopped := (h.modCore .transportDisarm).dmaStopIf (h.masterChan hr)
  exact (BoundFrame.ite stopped.seqStop stopped).masterClose _

/-- The bulk part of a kick goes to the channel bound. -/
theorem BoundFrame.masterBulk (h : BoundFrame i c a s₀ s) (x y : Endpoint) (n : Word) (d : DmaDir) (r : Dir) :
    BoundFrame i c a s₀ (Machine.dmaBulk i (s.m i).dmaChannel x y n d r s) := by
  rw [h.masterChan hr]
  exact h.dmaBulk x y n d r

theorem BoundFrame.masterKickSend (h : BoundFrame i c a s₀ s) (n : Word) : BoundFrame i c a s₀ (masterKickSend i n s) :=
  (BoundFrame.ite (h.masterBulk hr ..) h).masterSendStep

theorem BoundFrame.masterKickRecv (h : BoundFrame i c a s₀ s) (n : Word) : BoundFrame i c a s₀ (masterKickRecv i n s) :=
  (BoundFrame.ite (h.masterBulk hr ..) h).modCore _

theorem BoundFrame.masterBegin (h : BoundFrame i c a s₀ s) (d : Dir) (buf len : Word) (stop : Bool) :
    BoundFrame i c a s₀ (masterBegin i d buf len stop s).2 := by
  have begun := h.modM (f := (·.begin d buf len stop)) fun m => m.begin_dmaChannel d buf len stop
  have addressed := ((begun.modCore .transportArm).setPhase .address).seqOnly (seqAddress_only i (wireOf d) _)
  unfold Machine.masterBegin
  generalize Machine.seqAddress i (wireOf d) _ = r at addressed ⊢
  dsimp only
  split
  · exact addressed.masterErrorExit hr _
  · have data := addressed.setPhase .data
    cases d with
    | rx => exact data.masterKickRecv hr len
    | tx => exact data.masterKickSend hr len

theorem BoundFrame.masterHandler (h : BoundFrame i c a s₀ s) (ha : bufAddr (s.m i).rxBuf + (s.m i).rxCursor = a) :
    BoundFrame i c a s₀ (masterHandler i s) := by
  have dropped := h.modCore .dropSlaveFlags
  have hm : (s.modCore i .dropSlaveFlags).m i = s.m i := by simp [State.m_eq]
  exact .ite (dropped.modCore _) (.ite ((dropped.modCore _).masterErrorExit hr _)
    (.ite ((dropped.modCore _).masterErrorExit hr _) (.ite (dropped.masterByte (by rw [hm]; exact ha)) dropped)))

theorem BoundFrame.masterDmaError (h : BoundFrame i c a s₀ s) : BoundFrame i c a s₀ (masterDmaError i c s) := by
  have taken := h.modChan fun d => { d with err := false }
  exact .ite taken (taken.masterErrorExit hr _)

theorem BoundFrame.masterDispatch (h : BoundFrame i c a s₀ s) (ha : bufAddr (s.m i).rxBuf + (s.m i).rxCursor = a) :
    BoundFrame i c a s₀ (masterDispatch i s) := by
  unfold Machine.masterDispatch
  rw [h.masterChan hr]
  exact .ite (h.masterDmaError hr) (.ite (h.masterDmaDone) (h.masterHandler hr ha))

end Master

/-! ## The slave -/

section Slave

theorem BoundFrame.slaveLend (h : BoundFrame i c a s₀ s) {m : Bool} {d : Dir} {buf len : Word}
    (e : slaveLend i m d buf len s = .next t) : BoundFrame i c a s₀ t := by
  unfold Machine.slaveLend at e
  split at e
  · cases e
  · cases e
    exact h.modS fun x => x.lendSet_dmaChannel d buf len

theorem BoundFrame.callbackLend (h : BoundFrame i c a s₀ s) {m : Bool} {d : Dir} {l : Lend}
    (e : callbackLend i m d l s = .next t) : BoundFrame i c a s₀ t := by
  unfold Machine.callbackLend at e
  split at e
  · cases e
    exact h
  · split at e
    · cases e
    · exact h.slaveLend e

theorem BoundFrame.applyCb (h : BoundFrame i c a s₀ s) {m : Bool} {d : CbDraw} (e : applyCb i m d s = .next t) :
    BoundFrame i c a s₀ t := by
  cases d with
  | nothing => cases e; exact h
  | setTx l => exact h.callbackLend e
  | setRx l => exact h.callbackLend e
  | setTxRx l k =>
    obtain ⟨u, h1, h2⟩ := Res.bind_eq_next e
    exact (h.callbackLend h1).callbackLend h2
  | setRxTx k l =>
    obtain ⟨u, h1, h2⟩ := Res.bind_eq_next e
    exact (h.callbackLend h1).callbackLend h2

theorem BoundFrame.slaveCallback (h : BoundFrame i c a s₀ s) {v : Event} (e : slaveCallback i v s = .next t) :
    BoundFrame i c a s₀ t := by
  unfold Machine.slaveCallback at e
  split at e
  · cases e
    exact h
  · exact (h.notify v).drawCb.applyCb e

theorem BoundFrame.slaveRecordError (h : BoundFrame i c a s₀ s) {r : Result} (e : slaveRecordError i r s = .next t) :
    BoundFrame i c a s₀ t := by
  obtain ⟨u, h1, h2⟩ := Res.bind_eq_next e
  cases h2
  exact ((h.setPhase .error).modS.slaveCallback h1).setPhase _

theorem BoundFrame.slaveTxNext (h : BoundFrame i c a s₀ s) (e : slaveTxNext i s = .next t) : BoundFrame i c a s₀ t := by
  obtain ⟨u, h1, h2⟩ := Res.bind_eq_next e
  have asked : BoundFrame i c a s₀ u := by
    split at h1
    · exact h.slaveCallback h1
    · cases h1
      exact h
  split at h2
  · cases h2
    exact asked.modS.modCore _
  · obtain ⟨v, h3, h4⟩ := Res.bind_eq_next h2
    cases h4
    exact (asked.slaveRecordError h3).modCore _

theorem BoundFrame.slaveRecvByte (h : BoundFrame i c a s₀ s) (ha : bufAddr (s.s i).rxBuf + (s.s i).rxCursor = a)
    (e : slaveRecvByte i s = .next t) : BoundFrame i c a s₀ t := by
  subst ha
  unfold Machine.slaveRecvByte at e
  dsimp only at e
  split at e
  · cases e
    exact (h.store _).modS.modCore _
  · exact (h.modCore _).slaveRecordError e

theorem BoundFrame.slaveBegin (h : BoundFrame i c a s₀ s) (e : slaveBegin i s = .next t) : BoundFrame i c a s₀ t := by
  unfold Machine.slaveBegin at e
  split at e
  · exact (h.modCore _).slaveTxNext e
  · cases e
    exact h.modCore _

theorem BoundFrame.slaveIdle (h : BoundFrame i c a s₀ s) : BoundFrame i c a s₀ (slaveIdle i s) :=
  .ite h (h.modS.logDma _)

theorem BoundFrame.slaveTeardown (h : BoundFrame i c a s₀ s) : BoundFrame i c a s₀ (slaveTeardown i s) :=
  .ite h (h.modCore _).modS

theorem BoundFrame.slaveEndIdle (h : BoundFrame i c a s₀ s) : BoundFrame i c a s₀ (slaveEndIdle i s) :=
  .ite h h.slaveIdle.postS

theorem SCtx.dmaSettled_dmaChannel (x : SCtx) (left : Word) : (x.dmaSettled left).dmaChannel = x.dmaChannel := by
  unfold SCtx.dmaSettled
  split
  · split <;> rfl
  · split <;> rfl
  · rfl

theorem SCtx.enterTransfer_dmaChannel (x : SCtx) : x.enterTransfer.dmaChannel = x.dmaChannel := by
  simp only [SCtx.enterTransfer, SCtx.modX_toXfer]
  split <;> rfl

theorem BoundFrame.slaveAccept (h : BoundFrame i c a s₀ s) (d : Dir) (buf len : Word) :
    BoundFrame i c a s₀ (slaveAccept i d buf len s) := by
  have lent := h.modS (f := fun x => (x.lendStart d buf len).modX fun y => { y with lastResult := .busy, idle := false })
    fun x => x.lendStart_dmaChannel d buf len
  have armed (p : Prop) [Decidable p] := BoundFrame.ite (p := p) lent (lent.setPhase .armed)
  exact .ite (armed _) ((armed _).modCore _)

theorem BoundFrame.slaveByteEvent (h : BoundFrame i c a s₀ s) (ha : bufAddr (s.s i).rxBuf + (s.s i).rxCursor = a)
    (e : slaveByteEvent i s = .next t) : BoundFrame i c a s₀ t := by
  unfold Machine.slaveByteEvent at e
  split at e
  · split at e
    · cases e
      exact h.modCore _
    · split at e
      · cases e
        exact h.modCore _
      · split at e
        · exact h.slaveTxNext e
        · exact h.slaveRecvByte ha e
  · cases e
    exact h

variable (hr : (s₀.bus i).role = .slave)
include hr

theorem BoundFrame.slaveAbort (h : BoundFrame i c a s₀ s) : BoundFrame i c a s₀ (slaveAbort i s) := by
  have stopped := (h.modCore .slaveDisarm).dmaStopIf (h.slaveChan hr)
  have aborted := stopped.modS (f := fun x => (x.giveBack.modX fun y => { y with lastResult := .aborted }).leaveTransfer)
  have closed := (aborted.slaveIdle.setPhase .idle).postS
  exact .ite (closed.modCore _) closed

theorem BoundFrame.slaveDmaSettle (h : BoundFrame i c a s₀ s) : BoundFrame i c a s₀ (slaveDmaSettle i s) := by
  unfold Machine.slaveDmaSettle
  rw [h.slaveChan hr]
  refine .ite (.modChan (.modS h ?_) _) h
  exact fun x => x.dmaSettled_dmaChannel _

theorem BoundFrame.slaveDmaEnd (h : BoundFrame i c a s₀ s) : BoundFrame i c a s₀ (slaveDmaEnd i s) := by
  unfold Machine.slaveDmaEnd
  rw [h.slaveChan hr]
  have ended := (h.slaveDmaSettle hr).dmaStop.modCore .dmareqOff
  exact .ite (ended.modCore _) ended

theorem BoundFrame.slaveDmaRestart (h : BoundFrame i c a s₀ s) : BoundFrame i c a s₀ (slaveDmaRestart i s) := by
  unfold Machine.slaveDmaRestart
  rw [h.slaveChan hr]
  exact .ite ((h.slaveDmaSettle hr).dmaStop.modCore _) h

theorem BoundFrame.slaveDmaBulk (h : BoundFrame i c a s₀ s) (x y : Endpoint) (n : Word) (d : DmaDir) (r : Dir) :
    BoundFrame i c a s₀ (slaveDmaBulk i x y n d r s) := by
  unfold Machine.slaveDmaBulk
  rw [h.slaveChan hr]
  exact (h.dmaBulk x y n d r).modS

theorem BoundFrame.slaveDmaArm (h : BoundFrame i c a s₀ s) (e : slaveDmaArm i s = .next t) : BoundFrame i c a s₀ t := by
  have restarted := h.slaveDmaRestart hr
  unfold Machine.slaveDmaArm at e
  dsimp only at e
  split at e
  · have turned := restarted.modCore (·.setDir .tx)
    exact (BoundFrame.ite (turned.slaveDmaBulk hr ..) turned).slaveTxNext e
  · cases e
    have turned := restarted.modCore fun k =>
      (k.setDir .rx).setAck (if ((Machine.slaveDmaRestart i s).s i).rxRemaining ≠ 0 then .ack else .nack)
    exact .ite (turned.slaveDmaBulk hr ..) turned

theorem BoundFrame.slaveAddrMatch (h : BoundFrame i c a s₀ s) (e : slaveAddrMatch i s = .next t) :
    BoundFrame i c a s₀ t := by
  have entered := ((h.modCore (·.clearFlag .addrmatch)).modS fun x => x.enterTransfer_dmaChannel).setPhase .data
  unfold Machine.slaveAddrMatch at e
  dsimp only at e
  split at e
  · obtain ⟨u, h1, h2⟩ := Res.bind_eq_next e
    exact (entered.modS.slaveCallback h1).slaveDmaArm hr h2
  · obtain ⟨u, h1, h2⟩ := Res.bind_eq_next e
    exact (entered.modS.slaveCallback h1).slaveBegin h2

theorem BoundFrame.slaveStop (h : BoundFrame i c a s₀ s) : BoundFrame i c a s₀ (slaveStop i s) := by
  have cleared := h.modCore (·.clearFlag .stopf)
  have ended (p : Prop) [Decidable p] := BoundFrame.ite (p := p) (cleared.slaveDmaEnd hr) cleared
  have left (p : Prop) [Decidable p] := (ended p).modS (f := fun x => (x.modX (·.settleResult)).leaveTransfer)
    fun x => x.settleResult_dmaChannel
  exact ((left _).slaveTeardown.slaveEndIdle.setPhase _).notify _

theorem BoundFrame.slaveHandler (h : BoundFrame i c a s₀ s) (ha : bufAddr (s.s i).rxBuf + (s.s i).rxCursor = a)
    (e : slaveHandler i s = .next t) : BoundFrame i c a s₀ t := by
  obtain ⟨v, h12, h3⟩ := Res.bind_eq_next e
  obtain ⟨u, h1, h2⟩ := Res.bind_eq_next h12
  have hx : (s.modCore i .dropMasterFlags).s i = s.s i := by simp [State.s_eq]
  have served : BoundFrame i c a s₀ u := (h.modCore .dropMasterFlags).slaveByteEvent (by rw [hx]; exact ha) h1
  have stopped : BoundFrame i c a s₀ v := by
    cases h2
    exact .ite (served.slaveStop hr) served
  unfold slaveMatchEvent at h3
  split at h3
  · exact stopped.slaveAddrMatch hr h3
  · cases h3
    exact stopped

theorem BoundFrame.slaveDmaDone (h : BoundFrame i c a s₀ s) : BoundFrame i c a s₀ (slaveDmaDone i c s) :=
  ((h.modChan _).slaveDmaSettle hr).modCore _

theorem BoundFrame.slaveDmaError (h : BoundFrame i c a s₀ s) (e : slaveDmaError i c s = .next t) : BoundFrame i c a s₀ t :=
  (((h.modChan _).slaveDmaSettle hr).dmaStop.modCore _).slaveRecordError e

theorem BoundFrame.slaveDispatch (h : BoundFrame i c a s₀ s) (ha : bufAddr (s.s i).rxBuf + (s.s i).rxCursor = a)
    (e : slaveDispatch i s = .next t) : BoundFrame i c a s₀ t := by
  unfold Machine.slaveDispatch at e
  rw [h.slaveChan hr] at e
  split at e
  · exact h.slaveDmaError hr e
  · split at e
    · cases e
      exact h.slaveDmaDone hr
    · exact h.slaveHandler hr ha e

end Slave

/-! ## The operations -/

/-- Where an event of bus `i` stores the byte that arrived (R73, R295). -/
def State.rxAddr (s : State) (i : BusId) : Word := bufAddr (s.ctx i).rxBuf + (s.ctx i).rxCursor

theorem dispatch_frame (h : dispatch i s = .next t) : BoundFrame i (s.ctx i).dmaChannel (s.rxAddr i) s t := by
  have start := BoundFrame.refl i (s.rxAddr i) s
  unfold Machine.dispatch at h
  split at h
  · split at h
    · rename_i hr
      cases h
      exact start.masterDispatch hr (by rw [State.rxAddr, State.ctx_eq, Bus.ctx_master _ hr, State.m_eq])
    · rename_i hr
      exact start.slaveDispatch hr (by rw [State.rxAddr, State.ctx_eq, Bus.ctx_slave _ hr, State.s_eq]) h
    · cases h
      exact start
  · cases h
    exact start

/-- Turning an operation away writes RET only. -/
theorem OpFrame.admitted (h : OpFrame i c a s₀ s) {k : OpClass} {f : State → Res}
    (hf : ∀ t, (s.bus i).turnAway k = .none → f s = .next t → OpFrame i c a s₀ t) (e : admitted k i s f = .next t) :
    OpFrame i c a s₀ t := by
  rcases admitted_next e with ⟨r, -, rfl⟩ | ⟨hk, h1⟩
  · exact h.setRet r
  · exact hf t hk h1

theorem OpFrame.withBuffer (h : OpFrame i c a s₀ s) {f : Word → Word → Res}
    (hf : ∀ t buf len, f buf len = .next t → OpFrame i c a s₀ t) (e : withBuffer s f = .next t) : OpFrame i c a s₀ t := by
  rcases withBuffer_next e with rfl | ⟨-, h1⟩
  · exact h.setRet _
  · exact hf t _ _ h1

theorem OpFrame.primitive (h : OpFrame i c a s₀ s) {f : BusCore → BusCore} (e : primitive i f s = .next t) :
    OpFrame i c a s₀ t :=
  h.admitted (fun t _ e => by cases e; exact (h.modBus _).setRet _) e

theorem OpFrame.sequencer (h : OpFrame i c a s₀ s) {k : OpClass} {f : State → Word × State} (hf : SeqOnly i s (f s).2)
    (e : sequencer k i f s = .next t) : OpFrame i c a s₀ t :=
  h.admitted (fun t _ e => by cases e; exact (h.seqOnly hf).setRetWord _) e

theorem Bus.turnAway_master {b : Bus} {k : OpClass} (hk : k = .mStart ∨ k = .mAbort) (h : b.turnAway k = .none) :
    b.role = .master := by
  rcases hk with rfl | rfl
  · exact eq_of_beq (b.turnAway_role (by decide) h).2
  · exact eq_of_beq (b.turnAway_role (by decide) h).2

/-! ### Starting and ending a transfer -/

theorem OpFrame.masterStart {d : Dir} {stop : Bool} (e : masterStart i d stop s = .next t) :
    OpFrame i (s.ctx i).dmaChannel a s t := by
  have start := BoundFrame.refl i a s
  refine start.admitted (fun t hk e => start.withBuffer (fun t buf len e => ?_) e) e
  cases e
  exact (start.masterBegin (Bus.turnAway_master (.inl rfl) hk) d buf len stop).setRet _

theorem OpFrame.masterStartBlk {d : Dir} {stop : Bool} (e : masterStartBlk i d stop s = .next t) :
    OpFrame i (s.ctx i).dmaChannel a s t := by
  have start := BoundFrame.refl i a s
  refine start.admitted (fun t hk e => start.withBuffer (fun t buf len e => ?_) e) e
  have blocking : BoundFrame i _ a s ((s.modMX i fun x => { x with blocking := true }).modBus i .semClear) :=
    start.modM.modRest rfl rfl rfl
  have begun := blocking.masterBegin (Bus.turnAway_master (.inl rfl) hk) d buf len stop
  generalize Machine.masterBegin i d buf len stop _ = r at begun e
  dsimp only at e
  split at e
  · cases e
    exact begun.toOpFrame.modBus _
  · cases e
    exact (begun.toOpFrame.modBus _).setRet _

theorem OpFrame.masterAbort (e : execMAbort i s = .next t) : OpFrame i (s.ctx i).dmaChannel a s t := by
  have start := BoundFrame.refl i a s
  refine start.admitted (fun t hk e => ?_) e
  cases e
  exact (BoundFrame.ite start (start.masterAbort (Bus.turnAway_master (.inr rfl) hk))).setRet _

theorem OpFrame.slaveAbort (e : execSAbort i s = .next t) : OpFrame i (s.ctx i).dmaChannel a s t := by
  have start := BoundFrame.refl i a s
  refine start.admitted (fun t hk e => ?_) e
  cases e
  have hr : (s.bus i).role = .slave := eq_of_beq (Bus.turnAway_role (by decide) hk).2
  exact (BoundFrame.ite start (start.slaveAbort hr)).setRet _

theorem OpFrame.slaveSetBuf {d : Dir} (e : slaveSetBuf i d s = .next t) : OpFrame i (s.ctx i).dmaChannel a s t := by
  have start := BoundFrame.refl i a s
  refine start.admitted (fun t _ e => start.withBuffer (fun t buf len e => ?_) e) e
  obtain ⟨u, h1, h2⟩ := Res.bind_eq_next e
  cases h2
  exact (start.slaveLend h1).setRet _

theorem OpFrame.slaveStart {d : Dir} (e : slaveStart i d s = .next t) : OpFrame i (s.ctx i).dmaChannel a s t := by
  have start := BoundFrame.refl i a s
  refine start.admitted (fun t _ e => start.withBuffer (fun t buf len e => ?_) e) e
  cases e
  exact (start.slaveAccept d buf len).setRet _

theorem OpFrame.slaveStartBlk {d : Dir} (e : slaveStartBlk i d s = .next t) : OpFrame i (s.ctx i).dmaChannel a s t := by
  have start := BoundFrame.refl i a s
  refine start.admitted (fun t _ e => start.withBuffer (fun t buf len e => ?_) e) e
  cases e
  have blocking : BoundFrame i _ a s ((s.modSX i fun x => { x with blocking := true }).modBus i .semClear) :=
    start.modS.modRest rfl rfl rfl
  exact (blocking.slaveAccept d buf len).toOpFrame.modBus _

/-! ### Status -/

theorem OpFrame.masterDmaRemaining (h : OpFrame i c a s₀ s) : OpFrame i c a s₀ (masterDmaRemaining i s).2 := by
  unfold Machine.masterDmaRemaining
  dsimp only
  split
  · exact h.logDma _
  · exact h

theorem OpFrame.mGetStatus (h : OpFrame i c a s₀ s) (e : execMGetStatus i s = .next t) : OpFrame i c a s₀ t := by
  refine h.admitted (fun t _ e => ?_) e
  cases e
  refine (OpFrame.giveOut0 ?_ _).setRet _
  split
  · exact h
  · split
    · exact h.masterDmaRemaining
    · exact h

theorem OpFrame.sGetStatus (h : OpFrame i c a s₀ s) (e : execSGetStatus i s = .next t) : OpFrame i c a s₀ t := by
  refine h.admitted (fun t _ e => ?_) e
  cases e
  refine (OpFrame.giveOut0 ?_ _).setRet _
  dsimp only
  split
  · exact h.logDma _
  · exact h

/-! ### Lifecycle -/

theorem OpFrame.solveDivider (h : OpFrame i c a s₀ s) (r : Word) : OpFrame i c a s₀ (solveDivider i r s) := by
  unfold Machine.solveDivider
  split
  · exact h.modBus _
  · exact h

theorem OpFrame.initAdmitted (h : OpFrame i c a s₀ s) {tr : Transport} {w : Bool} {ch : Chan} {f : State → State}
    (hf : OpFrame i c a s₀ (f s)) (e : initAdmitted i tr w ch s f = .next t) : OpFrame i c a s₀ t := by
  rcases initAdmitted_next e with ⟨r, rfl⟩ | ⟨-, -, rfl⟩
  · exact h.setRet r
  · exact hf.setRet _

theorem OpFrame.initSlave (h : OpFrame i c a s₀ s) (tr : Transport) (w cb l k : Bool) (ch : Chan) :
    OpFrame i c a s₀ (initSlave i tr w cb l k ch s) := by
  unfold Machine.initSlave armIf
  split
  · exact ((h.modBus _).solveDivider _).modBus _
  · exact (h.modBus _).solveDivider _

theorem BoundFrame.deinitAbort (h : BoundFrame i c a s s) : BoundFrame i c a s (deinitAbort i s) := by
  unfold Machine.deinitAbort
  split
  · rename_i hr
    exact (BoundFrame.ite h (h.slaveAbort hr)).modCore _
  · rename_i hr
    exact .ite h (h.masterAbort hr)
  · exact h

theorem BoundFrame.releaseChan (h : BoundFrame i c a s₀ s) : BoundFrame i c a s₀ (releaseChan i s) := by
  unfold Machine.releaseChan
  rw [h.bound]
  exact .ite (h.modChan _) h

/-- What every operation leaves alone, whatever it does to its own bus. -/
theorem exec_frame {x : Instr} (e : exec x s = .next t) :
    OpFrame x.inst (s.ctx x.inst).dmaChannel (s.rxAddr x.inst) s t := by
  have start := BoundFrame.refl x.inst (s.rxAddr x.inst) s
  have same := start.toOpFrame
  cases x <;> simp only [exec] at e
  case initMaster i tr w cb ch => exact same.initAdmitted ((same.modBus _).solveDivider _) e
  case initSlave i tr w cb l k ch => exact same.initAdmitted (same.initSlave ..) e
  case deinit i =>
    exact same.admitted
      (fun t _ e => by cases e; exact (start.deinitAbort.releaseChan.toOpFrame.modBus _).setRet _) e
  case setRate i =>
    refine same.admitted (fun t _ e => ?_) e
    split at e
    · cases e; exact same.setRet _
    · cases e; exact (same.solveDivider _).setRet _
  case getRate i => exact same.admitted (fun t _ e => by cases e; exact (same.giveOut0 _).setRet _) e
  case setTargetAddr i w =>
    refine same.admitted (fun t _ e => ?_) e
    split at e
    · cases e; exact same.setRet _
    · cases e; exact (same.modBus _).setRet _
  case setOwnAddr i w =>
    refine same.admitted (fun t _ e => ?_) e
    split at e
    · cases e; exact same.setRet _
    · cases e; exact ((same.modBus _).modBus _).setRet _
  case setCallback i b => exact same.admitted (fun t _ e => by cases e; exact (same.modBus _).setRet _) e
  case irqEntry i =>
    refine same.admitted (fun t _ e => ?_) e
    obtain ⟨u, h1, h2⟩ := Res.bind_eq_next e
    cases h2
    exact (dispatch_frame h1).setRet _
  case mSend | mRecv => exact .masterStart e
  case mSendBlk | mRecvBlk => exact .masterStartBlk e
  case mAbort => exact .masterAbort e
  case mGetStatus => exact same.mGetStatus e
  case sSetTxBuf | sSetRxBuf => exact .slaveSetBuf e
  case sSend | sRecv => exact .slaveStart e
  case sSendBlk | sRecvBlk => exact .slaveStartBlk e
  case sAbort => exact .slaveAbort e
  case sGetStatus => exact same.sGetStatus e
  case seqStart i => exact same.sequencer (seqStart_only i s) e
  case seqRstart i => exact same.sequencer (seqRstart_only i s) e
  case seqWaitReady i => exact same.sequencer (seqWaitReady_only i s) e
  case seqTxByte i b => exact same.sequencer (seqTxByte_only i b s) e
  case seqStop i => exact same.sequencer (seqStop_only i s) e
  case seqAddress i d => exact same.sequencer (seqAddress_only i d s) e
  case pReadData | pReadLast =>
    exact same.admitted (fun t _ e => by cases e; exact ((same.modBus _).setOut0 _).setRet _) e
  case pSetDiv i w b =>
    refine same.admitted (fun t _ e => ?_) e
    split at e
    · cases e
    · cases e; exact (same.modBus _).setRet _
  case pGetFlags => exact same.admitted (fun t _ e => by cases e; exact (same.setOut0 _).setRet _) e
  case pStart | pRstart | pStop | pSetDir | pSetAck | pWriteData | pClearFlag | pIntEnable | pIntDisable | pModuleEnable |
      pModuleDisable | pSetDmareq => exact same.primitive e

/-- Only IRQ_ENTRY writes buffer memory. -/
theorem exec_mem {x : Instr} (hx : ∀ i, x ≠ .irqEntry i) (e : exec x s = .next t) : t.mem = s.mem := by
  have hP : ∀ u v : State, v.params = u.params → v.mem = u.mem → u.mem = s.mem → v.mem = s.mem :=
    fun _ _ _ hv hu => hv.trans hu
  exact exec_closed (wireClosed_of_params_mem hP x.inst) (lifeClosed_of_params_mem hP x.inst)
    (fun ⟨i, hi⟩ => absurd hi (hx i)) rfl e

/-- Settles O60: the frame each operation keeps, composed along its arms, and memory kept by all but IRQ_ENTRY. -/
theorem operationFrame : Obligations.OperationFrame := by
  unfold Obligations.OperationFrame
  intro x s t e
  obtain ⟨others, chans, params, inputs, port, loads⟩ := exec_frame e
  exact ⟨others, chans, params, inputs, port, fun hx => exec_mem hx e, loads⟩

end Sys2Proof.Machine

/-! # The proofs of the family 40_primitives.md: the primitives, the bus step and the channel's own step (R140 to R173, R358) -/

namespace Sys2Proof.Machine

/-! ## Updates of one bus and one channel -/

@[simp] theorem State.setBus_self (s : State) (i : BusId) : s.setBus i (s.bus i) = s := by
  simp [State.setBus, State.bus]

@[simp] theorem State.setChan_setChan (s : State) (c : Chan) (d e : DmaChan) :
    (s.setChan c d).setChan c e = s.setChan c e := by
  simp [State.setChan]

@[simp] theorem State.setChan_modChan (s : State) (c : Chan) (d : DmaChan) (f : DmaChan → DmaChan) :
    (s.setChan c d).modChan c f = s.setChan c (f d) := by
  simp [State.modChan, State.setChan_chan]

/-! ## What each primitive makes of the core (R141 to R156) -/

namespace BusCore

variable (k : BusCore)

/-- A request made under a condition changes the pending request alone. -/
theorem ite_pend (p : Prop) [Decidable p] (x : Pend) :
    (if p then { k with pend := x } else k) = { k with pend := if p then x else k.pend } := by
  split <;> rfl

theorem start_eq :
    k.start = { k with pend := if k.moden = true ∧ k.mstr = true ∧ k.owner = false then .start else k.pend } := by
  simp [BusCore.start, ite_pend, and_assoc]

theorem rstart_eq : k.rstart = { k with pend := if k.moden = true ∧ k.owner = true then .rstart else k.pend } := by
  simp [BusCore.rstart, ite_pend]

theorem stop_eq : k.stop = { k with pend := if k.moden = true ∧ k.owner = true then .stop else k.pend } := by
  simp [BusCore.stop, ite_pend]

theorem writeData_eq (b : Byte) :
    k.writeData b =
      { k with
        data := b, bnd := false
        pend :=
          if k.moden = true ∧ k.dir = .tx ∧ (k.owner = true ∨ (k.sel = true ∧ k.srw = true)) then .txByte b
          else k.pend } := by
  simp [BusCore.writeData, and_assoc]

theorem readData_eq :
    k.readData =
      { k with
        bnd := false
        pend :=
          if k.moden = true ∧ k.mstr = true ∧ k.owner = true ∧ k.dir = .rx then .rxByte else k.pend } := by
  simp [BusCore.readData, and_assoc]

theorem clearFlag_eq (f : Sticky) :
    k.clearFlag f =
      { k with
        startf := k.startf && f != .startf
        bnd := k.bnd && f != .bnd
        rxnack := k.rxnack && f != .rxnack
        arblost := k.arblost && f != .arblost
        addrmatch := k.addrmatch && f != .addrmatch
        stopf := k.stopf && f != .stopf } := by
  cases f <;> simp [BusCore.clearFlag]

theorem setEnable_true_eq (x : IntSrc) :
    k.setEnable x true =
      { k with
        bndie := k.bndie || x == .bndie
        nackie := k.nackie || x == .nackie
        arbie := k.arbie || x == .arbie
        addrie := k.addrie || x == .addrie
        stopie := k.stopie || x == .stopie } := by
  cases x <;> simp [BusCore.setEnable]

theorem setEnable_false_eq (x : IntSrc) :
    k.setEnable x false =
      { k with
        bndie := k.bndie && x != .bndie
        nackie := k.nackie && x != .nackie
        arbie := k.arbie && x != .arbie
        addrie := k.addrie && x != .addrie
        stopie := k.stopie && x != .stopie } := by
  cases x <;> simp [BusCore.setEnable]

theorem setDmareq_eq (d : Dir) (en : Bool) :
    k.setDmareq d en =
      { k with
        dmatxen := if d = .tx then en else k.dmatxen
        dmarxen := if d = .rx then en else k.dmarxen } := by
  cases d <;> simp [BusCore.setDmareq]

theorem setDiv_enabled (h : k.moden = true) (sa : Byte) (st : BitVec 4) : k.setDiv sa st = k := if_pos h

theorem setDiv_disabled (h : k.moden = false) (sa : Byte) (st : BitVec 4) :
    k.setDiv sa st = { k with sample := sa, step := st } := if_neg (by simp [h])

end BusCore

/-! ## The primitives on an idle bus -/

theorem divOutOfRange_iff (p : Params) (sa : Byte) (st : BitVec 4) :
    divOutOfRange p sa st = true ↔
      ¬(p.sampleMin ≤ sa ∧ sa ≤ p.sampleMax ∧ p.stepMin ≤ st ∧ st ≤ p.stepMax) := by
  simp only [divOutOfRange, Bool.or_eq_true, decide_eq_true_eq, ← BitVec.not_le, Classical.not_and_iff_not_or_not,
    or_assoc]

section Idle

variable {i : BusId} {s : State} (h : IdleAt i s)
include h

/-- R104 lets every primitive through. -/
theorem IdleAt.admitted_prim (f : State → Res) : admitted .prim i s f = f s := admitted_run (h.turnAway rfl)

/-- R140: a primitive puts the core it makes in place of the old one and answers SUCCESS. -/
theorem IdleAt.primitive_core {f : BusCore → BusCore} {k : BusCore} (hk : f (s.core i) = k) :
    primitive i f s = .next ((s.setBus i { s.bus i with core := k }).setRet .success) := by
  subst hk
  exact h.admitted_prim _

theorem IdleAt.exec_pReadData :
    exec (.pReadData i) s =
      .next (((s.modCore i .readData).setOut0 ((s.core i).data.setWidth 32)).setRet .success) := by
  rw [exec]
  exact h.admitted_prim _

theorem IdleAt.exec_pReadLast :
    exec (.pReadLast i) s =
      .next (((s.modCore i .readLast).setOut0 ((s.core i).data.setWidth 32)).setRet .success) := by
  rw [exec]
  exact h.admitted_prim _

theorem IdleAt.exec_pGetFlags :
    exec (.pGetFlags i) s = .next ((s.setOut0 (s.core i).statusWord).setRet .success) := by
  rw [exec]
  exact h.admitted_prim _

theorem IdleAt.exec_pSetDiv (sa : Byte) (st : BitVec 4) :
    exec (.pSetDiv i sa st) s =
      if (s.core i).moden = false ∧ divOutOfRange s.params sa st then .refused (.dividerOutOfRange sa st)
      else .next ((s.setBus i { s.bus i with core := (s.core i).setDiv sa st }).setRet .success) := by
  rw [exec]
  exact h.admitted_prim _

theorem IdleAt.exec_pSetDiv_enabled (hm : (s.core i).moden = true) (sa : Byte) (st : BitVec 4) :
    exec (.pSetDiv i sa st) s = .next (s.setRet .success) := by
  rw [h.exec_pSetDiv, if_neg (by simp [hm]), BusCore.setDiv_enabled _ hm]
  exact congrArg (fun t : State => (.next (t.setRet .success) : Res)) (s.setBus_self i)

theorem IdleAt.exec_pSetDiv_inRange (hm : (s.core i).moden = false) {sa : Byte} {st : BitVec 4}
    (hr : s.params.sampleMin ≤ sa ∧ sa ≤ s.params.sampleMax ∧ s.params.stepMin ≤ st ∧ st ≤ s.params.stepMax) :
    exec (.pSetDiv i sa st) s =
      .next ((s.setBus i { s.bus i with core := { s.core i with sample := sa, step := st } }).setRet .success) := by
  rw [h.exec_pSetDiv, if_neg fun hout => (divOutOfRange_iff ..).mp hout.2 hr, BusCore.setDiv_disabled _ hm]

theorem IdleAt.exec_pSetDiv_outOfRange (hm : (s.core i).moden = false) {sa : Byte} {st : BitVec 4}
    (hr : ¬(s.params.sampleMin ≤ sa ∧ sa ≤ s.params.sampleMax ∧ s.params.stepMin ≤ st ∧ st ≤ s.params.stepMax)) :
    exec (.pSetDiv i sa st) s = .refused (.dividerOutOfRange sa st) := by
  rw [h.exec_pSetDiv, if_pos ⟨hm, (divOutOfRange_iff ..).mpr hr⟩]

end Idle

/-- Settles O30: P_SET_DIV by MODEN and range, the module switch by what it makes of the core. -/
theorem primitiveDividerAndModule : Obligations.PrimitiveDividerAndModule := by
  unfold Obligations.PrimitiveDividerAndModule
  intro i s h
  exact ⟨fun sa st hm => h.exec_pSetDiv_enabled hm sa st,
    fun sa st hm => ⟨h.exec_pSetDiv_inRange hm, h.exec_pSetDiv_outOfRange hm⟩,
    h.primitive_core rfl, false, h.primitive_core rfl⟩

/-- Settles O27: each request by its condition. -/
theorem primitiveRequests : Obligations.PrimitiveRequests := by
  unfold Obligations.PrimitiveRequests
  intro i s h
  exact ⟨h.primitive_core (s.core i).start_eq, h.primitive_core (s.core i).rstart_eq,
    h.primitive_core (s.core i).stop_eq⟩

/-- Settles O28: each primitive by the core it makes; the two reads answer the DATA before it. -/
theorem primitiveDataAccess : Obligations.PrimitiveDataAccess := by
  unfold Obligations.PrimitiveDataAccess
  intro i s h
  refine ⟨fun d => h.primitive_core rfl, fun a => h.primitive_core rfl,
    fun b => h.primitive_core ((s.core i).writeData_eq b), ?_, h.exec_pReadLast⟩
  rw [← BusCore.readData_eq]
  exact h.exec_pReadData

/-- Settles O29: each primitive by the bit it names. -/
theorem primitiveFlagsAndEnables : Obligations.PrimitiveFlagsAndEnables := by
  unfold Obligations.PrimitiveFlagsAndEnables
  intro i s h
  exact ⟨fun f => h.primitive_core ((s.core i).clearFlag_eq f),
    fun x => h.primitive_core ((s.core i).setEnable_true_eq x),
    fun x => h.primitive_core ((s.core i).setEnable_false_eq x),
    fun d en => h.primitive_core ((s.core i).setDmareq_eq d en)⟩

/-! ## The bits of STATUS (R28) -/

theorem getLsbD_bitAt {n : Nat} (hn : n < 32) (b : Bool) (j : Nat) : (bitAt n b).getLsbD j = (b && decide (j = n)) := by
  cases b with
  | false => simp [bitAt]
  | true =>
    rw [bitAt, if_pos rfl, Bool.true_and, ← BitVec.twoPow_eq, BitVec.getLsbD_twoPow]
    simp only [hn, decide_true, Bool.true_and, eq_comm]

/-- The word is the union of ten single bits. -/
theorem BusCore.statusWord_getLsbD (k : BusCore) (j : Nat) :
    k.statusWord.getLsbD j =
      (k.ready && decide (j = 0) || k.busy && decide (j = 1) || k.startf && decide (j = 2) || k.bnd && decide (j = 3) ||
        k.rxnack && decide (j = 4) || k.arblost && decide (j = 5) || k.addrmatch && decide (j = 6) ||
        k.srw && decide (j = 7) || k.stopf && decide (j = 8) || k.owner && decide (j = 9)) := by
  simp [BusCore.statusWord, getLsbD_bitAt]

theorem BusCore.statusWord_getLsbD_high (k : BusCore) {j : Nat} (hj : 10 ≤ j) : k.statusWord.getLsbD j = false := by
  have hne : ∀ n < 10, decide (j = n) = false := fun n hn => decide_eq_false (by omega)
  simp [k.statusWord_getLsbD, hne]

/-- Settles O31: the bits of STATUS one by one. -/
theorem getFlagsReadsStatus : Obligations.GetFlagsReadsStatus := by
  unfold Obligations.GetFlagsReadsStatus
  intro i s h
  refine ⟨_, h.exec_pGetFlags, ?_, ?_, ?_, ?_, ?_, ?_, ?_, ?_, ?_, ?_, fun _ => (s.core i).statusWord_getLsbD_high⟩
  all_goals
    rw [BusCore.statusWord_getLsbD]
    simp [BusCore.ready]

/-! ## The bus step of a pending request (R160 to R166, R169) -/

section BusStep

variable {b : Bus} (d : BusDraw) (hm : b.core.moden = true)
include hm

/-- A start waits while another master has the bus (R160, log entry 7). -/
theorem Bus.busStep_start_busy (hp : b.core.pend = .start) (hb : b.core.busy = true) : b.busStep d = b := by
  simp [Bus.busStep, hm, hp, hb]

theorem Bus.busStep_start_free (hp : b.core.pend = .start) (hb : b.core.busy = false) :
    b.busStep d =
      (b.emit .s).modCore fun c => { c with busy := true, owner := true, startf := true, pend := .none } := by
  simp [Bus.busStep, hm, hp, hb]

theorem Bus.busStep_rstart (hp : b.core.pend = .rstart) :
    b.busStep d = (b.emit .sr).modCore fun c => { c with startf := true, pend := .none } := by
  simp [Bus.busStep, hm, hp]

theorem Bus.busStep_stop (hp : b.core.pend = .stop) :
    b.busStep d = (b.emit .p).modCore fun c => { c with busy := false, owner := false, pend := .none } := by
  simp [Bus.busStep, hm, hp]

theorem Bus.busStep_ownerByte {v : Byte} (hp : b.core.pend = .txByte v) (ho : b.core.owner = true) :
    b.busStep d = b.ownerByte v d.tx := by
  simp [Bus.busStep, hm, hp, ho]

theorem Bus.busStep_receiveByte (hp : b.core.pend = .rxByte) (ho : b.core.owner = true) :
    b.busStep d = b.receiveByte d.rxbyte := by
  simp [Bus.busStep, hm, hp, ho]

theorem Bus.busStep_slaveByte {v : Byte} (hp : b.core.pend = .txByte v) (ho : b.core.owner = false)
    (hsel : b.core.sel = true) (hsrw : b.core.srw = true) (hstop : ¬(b.core.stopOk = true ∧ d.remote = .stop)) :
    b.busStep d = b.slaveByte v d.ack := by
  simp only [Bus.busStep, hm, hp, ho, hsel, hsrw, hstop, if_true, if_false, Bool.false_eq_true, and_self]

end BusStep

/-- R170: what keeps a stop of the remote master from a slave. -/
theorem BusCore.stopOk_eq_false {k : BusCore} (h : k.addrmatch = true ∨ (k.bnd = true ∧ k.rxnack = false)) :
    k.stopOk = false := by
  rcases h with h | ⟨hb, hr⟩
  · simp [BusCore.stopOk, h]
  · simp [BusCore.stopOk, hb, hr]

/-- R162, R165, R166: a byte of the owner, by its answer. -/
theorem Bus.ownerByte_acked (b : Bus) (v : Byte) :
    b.ownerByte v .acked =
      { b with trace := b.trace ++ [.w v .ack], core := { b.core with bnd := true, pend := .none } } := rfl

theorem Bus.ownerByte_nacked (b : Bus) (v : Byte) :
    b.ownerByte v .nacked =
      { b with
        trace := b.trace ++ [.w v .nack, .p]
        core := { b.core with bnd := true, rxnack := true, pend := .none, busy := false, owner := false } } := by
  simp [Bus.ownerByte, Bus.emit, Bus.modCore]

theorem Bus.ownerByte_lost (b : Bus) (v : Byte) :
    b.ownerByte v .lost =
      { b with trace := b.trace ++ [.x], core := { b.core with arblost := true, owner := false, pend := .none } } := rfl

/-- A bus step writes its own bus only. -/
theorem runInput_bus {i : BusId} {s : State} {d : BusDraw} {b : Bus} (h : (s.bus i).busStep d = b) :
    runInput (.bus i d) s = .next (s.setBus i b) := by
  subst h
  rfl

/-- Settles O32: the bus step by the request pending. -/
theorem busStepCompletesRequest : Obligations.BusStepCompletesRequest := by
  unfold Obligations.BusStepCompletesRequest
  intro i s d hm
  refine ⟨fun hp hb => ?startBusy, fun hp hb => runInput_bus (Bus.busStep_start_free d hm hp hb),
    fun hp => runInput_bus (Bus.busStep_rstart d hm hp), fun hp => runInput_bus (Bus.busStep_stop d hm hp),
    fun v hp ho => ?ownerByte, fun hp ho => runInput_bus (Bus.busStep_receiveByte d hm hp ho),
    fun v hp ho hsel hsrw hs => ?slaveByte⟩
  case startBusy =>
    rw [runInput_bus (Bus.busStep_start_busy d hm hp hb), State.setBus_self]
  case ownerByte =>
    have hstep := Bus.busStep_ownerByte d hm hp ho
    refine ⟨fun hd => ?_, fun hd => ?_, fun hd => ?_⟩ <;> rw [hd] at hstep
    · exact runInput_bus (hstep.trans (Bus.ownerByte_acked _ v))
    · exact runInput_bus (hstep.trans (Bus.ownerByte_nacked _ v))
    · exact runInput_bus (hstep.trans (Bus.ownerByte_lost _ v))
  case slaveByte =>
    refine runInput_bus (Bus.busStep_slaveByte d hm hp ho hsel hsrw ?_)
    rintro ⟨hok, hd⟩
    exact Bool.false_ne_true ((BusCore.stopOk_eq_false (hs.resolve_left (not_not_intro hd))).symm.trans hok)

/-! ## The channel's own step (R358) -/

/-- The count of an active channel after one byte: it is done where one byte was left. -/
theorem DmaChan.served_active {d : DmaChan} (h : d.active = true) :
    d.served =
      { d with
        remaining := d.remaining - 1
        active := d.remaining != 1, done := d.done || d.remaining == 1 } := by
  have hlast : (d.remaining - 1 == 0) = (d.remaining == 1) := by
    have hiff : d.remaining - 1 = 0 ↔ d.remaining = 1 := by bv_omega
    rw [Bool.eq_iff_iff, beq_iff_eq, beq_iff_eq, hiff]
  simp only [DmaChan.served, h, Bool.true_and, bne, hlast]

/-- A byte is moved exactly by an active channel whose core asks for one its way. -/
def State.serves (s : State) (c : Chan) (i : BusId) : Bool :=
  (s.chan c).active && (s.core i).dreq && (s.core i).rightWay (s.chan c).dir

section Serve

variable {c : Chan} {i : BusId} {s : State}

theorem dmaServe_unowned (h : (s.chan c).owner = .none) : dmaServe c s = s := by
  simp [dmaServe, h]

variable (ho : (s.chan c).owner = .some i)
include ho

theorem dmaServe_not_serves (h : s.serves c i = false) : dmaServe c s = s := by
  simp only [State.serves] at h
  simp [dmaServe, ho, h]

/-- R358: one byte of memory for the data register. -/
theorem dmaServe_mem2dev (h : s.serves c i = true) {a : Word} (hd : (s.chan c).dir = .mem2dev)
    (ha : (s.chan c).src = .mem a) : dmaServe c s = (dmaPush i c a s).modChan c .served := by
  simp only [State.serves] at h
  simp only [dmaServe, ho, h]
  simp [hd, ha]

/-- R358: one byte of the data register for memory. -/
theorem dmaServe_dev2mem (h : s.serves c i = true) {a : Word} (hd : (s.chan c).dir = .dev2mem)
    (ha : (s.chan c).dst = .mem a) : dmaServe c s = (dmaPull i c a s).modChan c .served := by
  simp only [State.serves] at h
  simp only [dmaServe, ho, h]
  simp [hd, ha]

end Serve

theorem dmaPush_served (i : BusId) (c : Chan) (a : Word) {s : State} (h : (s.chan c).active = true) :
    (dmaPush i c a s).modChan c .served =
      (s.setChan c
        { s.chan c with
          src := .mem (a + 1), remaining := (s.chan c).remaining - 1
          active := (s.chan c).remaining != 1, done := (s.chan c).done || (s.chan c).remaining == 1 }).setBus i
        { s.bus i with core := (s.core i).writeData (s.load a) } := by
  have hd := DmaChan.served_active (d := { s.chan c with src := .mem (a + 1) }) h
  rw [dmaPush, ← hd, ← State.setChan_modChan]
  rfl

theorem dmaPull_served (i : BusId) (c : Chan) (a : Word) {s : State} (h : (s.chan c).active = true) :
    (dmaPull i c a s).modChan c .served =
      ((s.store a (s.core i).data).setChan c
        { s.chan c with
          dst := .mem (a + 1), remaining := (s.chan c).remaining - 1
          active := (s.chan c).remaining != 1, done := (s.chan c).done || (s.chan c).remaining == 1 }).setBus i
        { s.bus i with core := (s.core i).readData } := by
  have hd := DmaChan.served_active (d := { s.chan c with dst := .mem (a + 1) }) h
  rw [dmaPull, ← hd, ← State.setChan_modChan]
  rfl

theorem dmaFail_active {c : Chan} {s : State} (h : (s.chan c).active = true) :
    dmaFail c s = s.setChan c { s.chan c with active := false, err := true } := if_pos h

theorem dmaFail_inactive {c : Chan} {s : State} (h : (s.chan c).active = false) : dmaFail c s = s :=
  if_neg (by simp [h])

/-- Settles O57: a channel without a request to serve, one byte each way, and the channel error. -/
theorem dmaServesOneByte : Obligations.DmaServesOneByte := by
  unfold Obligations.DmaServesOneByte
  refine ⟨fun c s => ⟨fun h => congrArg _ (dmaServe_unowned h), fun h => congrArg _ (dmaFail_active h),
    fun h => congrArg _ (dmaFail_inactive h)⟩, fun c i s ho => ⟨fun h => ?idle, fun hm hw => ?wrongWay,
    fun ha hq hw => ?serves⟩⟩
  case idle =>
    refine congrArg _ (dmaServe_not_serves ho ?_)
    rcases h with h | h <;> simp [State.serves, h]
  case wrongWay =>
    exact congrArg _ (dmaServe_not_serves ho (by simp [State.serves, BusCore.rightWay, hm, hw]))
  case serves =>
    have hs : s.serves c i = true := by simp [State.serves, BusCore.rightWay, ha, hq, hw]
    exact ⟨fun a hd he => congrArg _ ((dmaServe_mem2dev ho hs hd he).trans (dmaPush_served i c a ha)),
      fun a hd he => congrArg _ ((dmaServe_dev2mem ho hs hd he).trans (dmaPull_served i c a ha))⟩

end Sys2Proof.Machine

/-! # The proofs of the family 41_sequencer.md: the sequencer's routines, and a master start (R190 to R202, R227) -/

namespace Sys2Proof.Machine

/-! ## The poll (R190), on a state whose bus `i` is `b` -/

@[simp] theorem State.setBus_setBus (s : State) (i : BusId) (b c : Bus) : (s.setBus i b).setBus i c = s.setBus i c := by
  simp [State.setBus]

theorem State.drawPoll_bus (s : State) (j : BusId) : s.drawPoll.2.bus j = s.bus j := by
  unfold State.drawPoll
  split <;> rfl

theorem State.drawPoll_setBus (s : State) (i : BusId) (b : Bus) :
    (s.setBus i b).drawPoll = (s.drawPoll.1, s.drawPoll.2.setBus i b) := by
  unfold State.drawPoll
  rw [State.setBus_env]
  split <;> rfl

/-- Nothing completes that is not pending. -/
theorem BusCore.pend_of_canComplete {k : BusCore} (h : k.canComplete = true) : k.pend ≠ .none := by
  intro hp
  simp [BusCore.canComplete, hp] at h

theorem BusCore.moden_of_canComplete {k : BusCore} (h : k.canComplete = true) : k.moden = true :=
  (Bool.and_eq_true_iff.mp h).1

section Poll

variable {i : BusId} {cond : BusCore → Bool} {s : State} {b : Bus}

theorem poll_holds (h : cond b.core = true) : poll i cond (s.setBus i b) = (true, s.setBus i b) :=
  if_pos (by rw [State.core_eq, State.setBus_bus_same]; exact h)

variable (h : cond b.core = false)
include h

theorem poll_nothing (hp : b.core.pend = .none) : poll i cond (s.setBus i b) = (false, s.setBus i b) := by
  simp [poll, State.core_eq, h, hp]

theorem poll_gaveUp (hp : b.core.pend ≠ .none) (hd : s.drawPoll.1 = .withheld ∨ b.core.canComplete = false) :
    poll i cond (s.setBus i b) = (false, s.drawPoll.2.setBus i b.givenUp) := by
  have hcancel : (s.drawPoll.2.setBus i b).modCore i .cancel = s.drawPoll.2.setBus i b.givenUp := by
    simp [State.modCore, State.modBus, Bus.modCore, BusCore.cancel, Bus.givenUp]
  simp only [poll, State.core_eq, State.setBus_bus_same, h, hp, State.drawPoll_setBus, hcancel]
  cases hw : s.drawPoll.1 with
  | withheld => rfl
  | taken d => simp [hd.resolve_left (by simp [hw])]

theorem poll_taken {d : BusDraw} (hd : s.drawPoll.1 = .taken d) (hc : b.core.canComplete = true) :
    poll i cond (s.setBus i b) = (cond (b.busStep d).core, s.drawPoll.2.setBus i (b.busStep d)) := by
  have hstep : (s.drawPoll.2.setBus i b).busStep i d = s.drawPoll.2.setBus i (b.busStep d) := by
    simp [State.busStep, State.modBus]
  simp [poll, State.core_eq, State.drawPoll_setBus, h, BusCore.pend_of_canComplete hc, hd, hc, hstep]

end Poll

/-- R191, R202: an admitted routine leaves its state, and its status word in RET. -/
theorem IdleAt.sequencer_run {i : BusId} {s : State} (h : IdleAt i s) {k : OpClass}
    (hk : k.roleOk (s.bus i).role = true) {f : State → Word × State} {w : Word} {t : State} (hf : f s = (w, t)) :
    sequencer k i f s = .next (t.setRetWord w) := by
  rw [sequencer, admitted_run (h.turnAway hk), hf]

theorem IdleAt.seq_run {i : BusId} {s : State} (h : IdleAt i s) {f : State → Word × State} {w : Word} {t : State}
    (hf : f s = (w, t)) : sequencer .seq i f s = .next (t.setRetWord w) :=
  h.sequencer_run rfl hf

/-! ## SEQ_START and SEQ_RSTART (R192, R193) -/

section Condition

variable {i : BusId} {s : State} {request : BusCore → BusCore} {cond : BusCore → Bool} {k : BusCore}
  (hk : request ((s.core i).clearFlag .startf) = k)
include hk

theorem seqCondition_of_poll {r : Bool × State} (hr : poll i cond (s.setBus i { s.bus i with core := k }) = r) :
    seqCondition i request cond s = if r.1 then (0, r.2.modCore i (·.clearFlag .startf)) else (1, r.2) := by
  subst hk hr
  rfl

variable (hcond : cond k = false)
include hcond

theorem seqCondition_nothing (hp : k.pend = .none) :
    seqCondition i request cond s = (1, s.setBus i { s.bus i with core := k }) :=
  seqCondition_of_poll hk (poll_nothing (b := { s.bus i with core := k }) hcond hp)

theorem seqCondition_gaveUp (hp : k.pend ≠ .none) (hd : s.drawPoll.1 = .withheld ∨ k.canComplete = false) :
    seqCondition i request cond s =
      (1, s.drawPoll.2.setBus i { s.bus i with core := { k with pend := .none } }) :=
  seqCondition_of_poll hk (poll_gaveUp (b := { s.bus i with core := k }) hcond hp hd)

theorem seqCondition_taken {d : BusDraw} (hd : s.drawPoll.1 = .taken d) (hc : k.canComplete = true) {b : Bus}
    (hb : ({ s.bus i with core := k } : Bus).busStep d = b) :
    seqCondition i request cond s =
      if cond b.core then (0, s.drawPoll.2.setBus i { b with core := { b.core with startf := false } })
      else (1, s.drawPoll.2.setBus i b) := by
  subst hb
  rw [seqCondition_of_poll hk (poll_taken hcond hd hc)]
  simp [State.modCore, State.modBus, Bus.modCore, BusCore.clearFlag]

end Condition

/-- A request the core does not take finds nothing to poll for, or what was pending before (R190; log entry 36). -/
theorem IdleAt.condition_refused {i : BusId} {s : State} (h : IdleAt i s) {request : BusCore → BusCore}
    {cond : BusCore → Bool}
    (hk : request ((s.core i).clearFlag .startf) = { s.core i with startf := false })
    (hcond : cond { s.core i with startf := false } = false) :
    ((s.core i).pend = .none →
      sequencer .seq i (seqCondition i request cond) s = .next
        ((s.setBus i { s.bus i with core := { s.core i with startf := false } }).setRetWord 1)) ∧
    ((s.core i).pend ≠ .none →
      (s.drawPoll.1 = .withheld ∨ (s.core i).canComplete = false →
        sequencer .seq i (seqCondition i request cond) s = .next
          ((s.drawPoll.2.setBus i
            { s.bus i with core := { s.core i with startf := false, pend := .none } }).setRetWord 1)) ∧
      ∀ d, s.drawPoll.1 = .taken d → (s.core i).canComplete = true →
        ∃ t, runInput (.bus i d)
            (s.drawPoll.2.setBus i { s.bus i with core := { s.core i with startf := false } }) = .next t ∧
          sequencer .seq i (seqCondition i request cond) s = .next
            (if cond (t.core i) then
              (t.setBus i { t.bus i with core := { t.core i with startf := false } }).setRetWord 0
            else t.setRetWord 1)) := by
  refine ⟨fun hp => h.seq_run (seqCondition_nothing hk hcond hp),
    fun hp => ⟨fun hd => h.seq_run (seqCondition_gaveUp hk hcond hp hd), fun d hd hc => ?_⟩⟩
  obtain ⟨b, hb⟩ : ∃ b, ({ s.bus i with core := { s.core i with startf := false } } : Bus).busStep d = b := ⟨_, rfl⟩
  refine ⟨s.drawPoll.2.setBus i b, ?_, ?_⟩
  · rw [runInput_bus (b := b) (by rw [State.setBus_bus_same, hb]), State.setBus_setBus]
  · rw [h.seq_run (seqCondition_taken hk hcond hd hc hb)]
    simp only [State.core_eq, State.setBus_bus_same, State.setBus_setBus]
    cases cond b.core <;> rfl

/-- SEQ_START of a core that takes the start (R192). -/
theorem IdleAt.exec_seqStart_accepted {i : BusId} {s : State} (h : IdleAt i s) (hm : (s.core i).moden = true)
    (hs : (s.core i).mstr = true) (ho : (s.core i).owner = false) :
    (∀ d, s.drawPoll.1 = .taken d → (s.core i).busy = false →
      exec (.seqStart i) s = .next
        ((s.drawPoll.2.setBus i
          { s.bus i with
            trace := (s.bus i).trace ++ [.s]
            core := { s.core i with busy := true, owner := true, startf := false, pend := .none } }).setRetWord 0)) ∧
    (s.drawPoll.1 = .withheld ∨ (s.core i).busy = true →
      exec (.seqStart i) s = .next
        ((s.drawPoll.2.setBus i
          { s.bus i with core := { s.core i with startf := false, pend := .none } }).setRetWord 1)) := by
  have hk : ((s.core i).clearFlag .startf).start = { s.core i with startf := false, pend := .start } := by
    simp [BusCore.start_eq, BusCore.clearFlag, hm, hs, ho]
  refine ⟨fun d hd hb => ?taken, fun hd => ?gaveUp⟩
  case taken =>
    refine h.seq_run (f := seqStart i) ((seqCondition_taken hk rfl hd ?_ (Bus.busStep_start_free d hm rfl hb)).trans ?_)
    · simp [BusCore.canComplete, hm, hb]
    · rfl
  case gaveUp =>
    refine h.seq_run (f := seqStart i) (seqCondition_gaveUp hk rfl Pend.noConfusion (hd.imp_right fun hb => ?_))
    simp [BusCore.canComplete, hb]

/-- SEQ_RSTART of the owner (R193). -/
theorem IdleAt.exec_seqRstart_accepted {i : BusId} {s : State} (h : IdleAt i s) (hm : (s.core i).moden = true)
    (ho : (s.core i).owner = true) :
    (∀ d, s.drawPoll.1 = .taken d →
      exec (.seqRstart i) s = .next
        ((s.drawPoll.2.setBus i
          { s.bus i with
            trace := (s.bus i).trace ++ [.sr]
            core := { s.core i with startf := false, pend := .none } }).setRetWord 0)) ∧
    (s.drawPoll.1 = .withheld →
      exec (.seqRstart i) s = .next
        ((s.drawPoll.2.setBus i
          { s.bus i with core := { s.core i with startf := false, pend := .none } }).setRetWord 1)) := by
  have hk : ((s.core i).clearFlag .startf).rstart = { s.core i with startf := false, pend := .rstart } := by
    simp [BusCore.rstart_eq, BusCore.clearFlag, hm, ho]
  refine ⟨fun d hd => ?taken, fun hd => ?gaveUp⟩
  case taken =>
    refine h.seq_run (f := seqRstart i) ((seqCondition_taken hk rfl hd ?_ (Bus.busStep_rstart d hm rfl)).trans ?_)
    · simp [BusCore.canComplete, hm]
    · rfl
  case gaveUp => exact h.seq_run (f := seqRstart i) (seqCondition_gaveUp hk rfl Pend.noConfusion (.inl hd))

/-- Settles O35: each routine by whether the core takes its request. -/
theorem sequencerStarts : Obligations.SequencerStarts := by
  unfold Obligations.SequencerStarts
  intro i s h
  have startRefused : (s.core i).moden = false ∨ (s.core i).mstr = false ∨ (s.core i).owner = true →
      ((s.core i).clearFlag .startf).start = { s.core i with startf := false } := by
    rintro (e | e | e) <;> simp [BusCore.start, BusCore.clearFlag, e]
  have rstartRefused : (s.core i).moden = false ∨ (s.core i).owner = false →
      ((s.core i).clearFlag .startf).rstart = { s.core i with startf := false } := by
    rintro (e | e) <;> simp [BusCore.rstart, BusCore.clearFlag, e]
  have hstart := fun hx => h.condition_refused (cond := fun c => c.startf && c.busy) (startRefused hx) rfl
  have hrstart := fun hx => h.condition_refused (cond := (·.startf)) (rstartRefused hx) rfl
  simp only [Bool.and_eq_true] at hstart
  exact ⟨h.exec_seqStart_accepted, fun hp hx => (hstart hx).1 hp, fun hp hx => (hstart hx).2 hp,
    h.exec_seqRstart_accepted, fun hp hx => (hrstart hx).1 hp, fun hp hx => (hrstart hx).2 hp⟩

/-! ## The bus step that completes a request, as the core alone decides (R158 to R170) -/

/-- The core after a bus step. -/
def BusCore.stepped (c : BusCore) (d : BusDraw) : BusCore := (Bus.busStep { core := c } d).core

/-- The symbols a bus step puts on the wire. -/
def BusCore.stepSyms (c : BusCore) (d : BusDraw) : List Sym := (Bus.busStep { core := c } d).trace

/-- The fields of a core that are the same before and after a routine of the sequencer. -/
def BusCore.settings (c : BusCore) : BusCore :=
  { moden := c.moden, mstr := c.mstr, acksel := c.acksel, wakeen := c.wakeen, addr10 := c.addr10
    ownaddr := c.ownaddr, sample := c.sample, step := c.step, dmatxen := c.dmatxen, dmarxen := c.dmarxen
    bndie := c.bndie, nackie := c.nackie, arbie := c.arbie, addrie := c.addrie, stopie := c.stopie }

theorem BusCore.moden_of_settings {c e : BusCore} (h : c.settings = e.settings) : c.moden = e.moden :=
  (congrArg BusCore.moden h :)

/-- It writes the core and the end of the trace, and reads the core alone. -/
theorem Bus.busStep_eq {b : Bus} (d : BusDraw) (hc : b.core.canComplete = true) :
    b.busStep d = { b with core := b.core.stepped d, trace := b.trace ++ b.core.stepSyms d } := by
  have hm := BusCore.moden_of_canComplete hc
  unfold BusCore.stepped BusCore.stepSyms Bus.busStep
  cases hp : b.core.pend with
  | none => exact absurd hp (BusCore.pend_of_canComplete hc)
  | start =>
    have hb : b.core.busy = false := by simpa [BusCore.canComplete, hm, hp] using hc
    simp [hm, hb, Bus.modCore, Bus.emit]
  | rstart => simp [hm, Bus.modCore, Bus.emit]
  | stop => simp [hm, Bus.modCore, Bus.emit]
  | txByte v =>
    simp only [hm]
    unfold Bus.ownerByte
    (repeat' split) <;> simp [Bus.slaveByte, Bus.remoteStop, Bus.modCore, Bus.emit]
  | rxByte =>
    have ho : b.core.owner = true := by simpa [BusCore.canComplete, hm, hp] using hc
    simp [hm, ho, Bus.receiveByte, Bus.modCore, Bus.emit]

/-- Nothing is left pending, the settings are as they were, and a byte on the wire is the one that was pending. -/
theorem BusCore.stepped_completes {c : BusCore} (d : BusDraw) (hc : c.canComplete = true) :
    (c.stepped d).pend = .none ∧ (c.stepped d).settings = c.settings ∧
      ∀ v a, Sym.w v a ∈ c.stepSyms d → c.pend = .txByte v := by
  unfold BusCore.stepped BusCore.stepSyms Bus.busStep BusCore.settings
  revert hc
  unfold BusCore.canComplete
  cases hp : c.pend with
  | none => simp
  | start => cases c.busy <;> simp +contextual
  | rstart => simp +contextual
  | stop => simp +contextual
  | txByte v =>
    unfold Bus.ownerByte
    (repeat' split) <;> simp_all [Bus.slaveByte, Bus.remoteStop]
  | rxByte => simp +contextual [Bus.receiveByte]

/-! ## SEQ_WAIT_READY and SEQ_STOP (R194, R196) -/

theorem BusCore.ready_of_enabled {c : BusCore} (hm : c.moden = true) (hp : c.pend = .none) : c.ready = true := by
  simp [BusCore.ready, hm, hp]

theorem BusCore.ready_of_pend {c : BusCore} (hp : c.pend ≠ .none) : c.ready = false := by
  simp [BusCore.ready, hp]

/-- A completed request leaves the core ready for the next. -/
theorem Bus.busStep_ready {b : Bus} (d : BusDraw) (hc : b.core.canComplete = true) :
    (b.busStep d).core.ready = true := by
  obtain ⟨hp, hset, -⟩ := BusCore.stepped_completes d hc
  have hm := (BusCore.moden_of_settings hset).trans (BusCore.moden_of_canComplete hc)
  rw [Bus.busStep_eq d hc, BusCore.ready, hm, hp]
  rfl

/-- On a core that keeps the ownership invariant only a start can be kept from completing, by a busy bus. -/
theorem BusCore.canComplete_of_ok {c : BusCore} (h : c.ok = true) (hp : c.pend ≠ .none)
    (hs : c.pend = .start → c.busy = false) : c.canComplete = true := by
  grind [BusCore.ok, BusCore.pendOk, BusCore.canComplete]

theorem BusCore.canComplete_start_busy {c : BusCore} (hp : c.pend = .start) (hb : c.busy = true) :
    c.canComplete = false := by
  simp [BusCore.canComplete, hp, hb]

/-- An owner's stop is taken: its module is enabled and the bus is busy. -/
theorem BusCore.stop_of_owner {c : BusCore} (hok : c.ok = true) (ho : c.owner = true) :
    c.stop = { c with pend := .stop } ∧ c.busy = true ∧ c.moden = true := by
  have h : c.moden = true ∧ c.busy = true := by grind [BusCore.ok]
  simp [BusCore.stop, h, ho]

section WaitAndStop

variable {i : BusId} {s : State}

theorem seqWaitReady_of_poll {r : Bool × State} (hr : poll i BusCore.ready (s.setBus i (s.bus i)) = r) :
    seqWaitReady i s = (if r.1 then 0 else 2, r.2) := by
  rw [State.setBus_self] at hr
  subst hr
  rfl

theorem seqWaitReady_ready (h : (s.core i).ready = true) : seqWaitReady i s = (0, s) := by
  rw [seqWaitReady_of_poll (poll_holds h), State.setBus_self]
  rfl

theorem seqWaitReady_disabled (hm : (s.core i).moden = false) (hp : (s.core i).pend = .none) :
    seqWaitReady i s = (2, s) := by
  have h : (s.core i).ready = false := by simp [BusCore.ready, hm]
  rw [seqWaitReady_of_poll (poll_nothing h hp), State.setBus_self]
  rfl

theorem seqStop_of_poll {k : BusCore} (hk : (s.core i).stop = k) {r : Bool × State}
    (hr : poll i (fun c => !c.busy) (s.setBus i { s.bus i with core := k }) = r) :
    seqStop i s = (if r.1 then 0 else 8, r.2) := by
  subst hk hr
  rfl

/-- SEQ_STOP without ownership polls for a free bus; it requests nothing. -/
theorem seqStop_foreign (ho : (s.core i).owner = false) {r : Bool × State}
    (hr : poll i (fun c => !c.busy) (s.setBus i (s.bus i)) = r) : seqStop i s = (if r.1 then 0 else 8, r.2) :=
  seqStop_of_poll (k := s.core i) (by simp [BusCore.stop, ho]) hr

variable (hok : (s.core i).ok = true) (ho : (s.core i).owner = true)
include hok ho

/-- The owner's stop, taken. -/
theorem seqStop_owner_taken {d : BusDraw} (hd : s.drawPoll.1 = .taken d) :
    seqStop i s = (0, s.drawPoll.2.setBus i (s.bus i).stopped) := by
  obtain ⟨hk, hb, hm⟩ := BusCore.stop_of_owner hok ho
  have hstep := Bus.busStep_stop (b := { s.bus i with core := { s.core i with pend := .stop } }) d hm rfl
  rw [seqStop_of_poll hk (poll_taken (by simp [hb]) hd (by simp [BusCore.canComplete, hm])), hstep]
  rfl

/-- The owner's stop, withheld. -/
theorem seqStop_owner_withheld (hd : s.drawPoll.1 = .withheld) :
    seqStop i s = (8, s.drawPoll.2.setBus i (s.bus i).givenUp) := by
  obtain ⟨hk, hb, -⟩ := BusCore.stop_of_owner hok ho
  exact seqStop_of_poll hk (poll_gaveUp (b := { s.bus i with core := { s.core i with pend := .stop } }) (by simp [hb])
    Pend.noConfusion (.inl hd))

end WaitAndStop

/-- Settles O36: the poll of each routine, by what is pending, what is drawn and who owns the bus. -/
theorem sequencerWaitAndStop : Obligations.SequencerWaitAndStop := by
  unfold Obligations.SequencerWaitAndStop
  intro i s h hok
  have hdisabled : (s.core i).moden = false → (s.core i).pend = .none := by grind [BusCore.ok]
  have hnot : (s.core i).busy = true → (!(s.core i).busy) = false := by simp
  refine ⟨fun hm hp => h.seq_run (seqWaitReady_ready (BusCore.ready_of_enabled hm hp)),
    fun hm => h.seq_run (seqWaitReady_disabled hm (hdisabled hm)),
    fun hp => ⟨fun hd => ?waitGaveUp, fun d hd hs => ?waitDone⟩,
    fun ho => ⟨fun d hd => h.seq_run (seqStop_owner_taken hok ho hd),
      fun hd => h.seq_run (seqStop_owner_withheld hok ho hd)⟩,
    fun ho => ⟨fun hb => ?free, fun hb hp => ?busy,
      fun hb hp => ⟨fun hd => ?stopGaveUp, fun d hd hs => ?stopDone⟩⟩⟩
  case waitGaveUp =>
    have hd' := hd.imp_right fun ⟨hs, hb⟩ => BusCore.canComplete_start_busy hs hb
    exact h.seq_run (seqWaitReady_of_poll (poll_gaveUp (BusCore.ready_of_pend hp) hp hd'))
  case waitDone =>
    have hc := BusCore.canComplete_of_ok hok hp hs
    have hpoll := poll_taken (i := i) (b := s.bus i) (BusCore.ready_of_pend hp) hd hc
    rw [Bus.busStep_ready d hc] at hpoll
    refine ⟨_, runInput_bus (congrArg (·.busStep d) (s.drawPoll_bus i)), h.seq_run (seqWaitReady_of_poll hpoll)⟩
  case free =>
    have hstop := seqStop_foreign ho (poll_holds (s := s) (show (!(s.core i).busy) = true by simp [hb]))
    rw [State.setBus_self] at hstop
    exact h.seq_run hstop
  case busy =>
    have hstop := seqStop_foreign ho (poll_nothing (s := s) (hnot hb) hp)
    rw [State.setBus_self] at hstop
    exact h.seq_run hstop
  case stopGaveUp =>
    have hd' := hd.imp_right fun hs => BusCore.canComplete_start_busy hs hb
    exact h.seq_run (seqStop_foreign ho (poll_gaveUp (hnot hb) hp hd'))
  case stopDone =>
    have hc := BusCore.canComplete_of_ok hok hp fun e => absurd e hs
    have hrun := h.seq_run (seqStop_foreign ho (poll_taken (hnot hb) hd hc))
    refine ⟨_, runInput_bus (congrArg (·.busStep d) (s.drawPoll_bus i)), hrun.trans ?_⟩
    cases hbusy : ((s.bus i).busStep d).core.busy <;> simp [State.core_eq, hbusy]

/-! ## SEQ_TXBYTE (R195) -/

/-- A byte pending is abandoned where the stop of the remote master comes first (R170). -/
theorem Bus.busStep_abandoned {b : Bus} (d : BusDraw) (hm : b.core.moden = true) {v : Byte}
    (hp : b.core.pend = .txByte v) (ho : b.core.owner = false) (hok : b.core.stopOk = true) (hd : d.remote = .stop) :
    b.busStep d = b.remoteStop := by
  simp [Bus.busStep, hm, hp, ho, hok, hd]

theorem seqTxByte_disabled {i : BusId} {s : State} (b : Byte) (hm : (s.core i).moden = false)
    (hp : (s.core i).pend = .none) : seqTxByte i b s = (2, s) := by
  rw [seqTxByte, seqWaitReady_disabled hm hp]
  rfl

/-- A ready core is handed the byte; the answer is read once BND or ARBLOST is seen, or the poll has given up. -/
theorem seqTxByte_of_poll {i : BusId} {b : Byte} {s : State} (hready : (s.core i).ready = true) {k : BusCore}
    (hk : (s.core i).writeData b = k) {r : Bool × State}
    (hr : poll i (fun c => c.bnd || c.arblost) (s.setBus i { s.bus i with core := k }) = r) :
    seqTxByte i b s = seqTxDone i r.1 r.2 := by
  subst hk hr
  rw [seqTxByte, seqWaitReady_ready hready]
  rfl

theorem BusCore.with_pend {c : BusCore} {p : Pend} (h : c.pend = p) : { c with pend := p } = c := by
  subst h
  rfl

/-- The bus once its core has taken the byte (R148). -/
def Bus.offered (x : Bus) (b : Byte) : Bus :=
  { x with core := { x.core with data := b, bnd := false, pend := .txByte b } }

section TxDone

variable {i : BusId} {s : State} {x : Bus}

theorem seqTxDone_lost (ok : Bool) (h : x.core.arblost = true) :
    seqTxDone i ok (s.setBus i x) = (0x20, s.setBus i { x with core := { x.core with arblost := false } }) := by
  simp [seqTxDone, State.core_eq, h, State.modCore, State.modBus, Bus.modCore, BusCore.clearFlag, stArbLost]

variable (h : x.core.arblost = false)
include h

theorem seqTxDone_gaveUp : seqTxDone i false (s.setBus i x) = (4, s.setBus i x) := by
  simp [seqTxDone, State.core_eq, h, toByte]

theorem seqTxDone_done :
    seqTxDone i true (s.setBus i x) =
      (if x.core.rxnack then 0x10 else 0,
        s.setBus i { x with core := { x.core with bnd := false, rxnack := false } }) := by
  cases hn : x.core.rxnack <;>
    simp [seqTxDone, State.core_eq, h, hn, State.modCore, State.modBus, Bus.modCore, BusCore.clearFlag, stNack]

end TxDone

theorem BusCore.writeData_taken {c : BusCore} (b : Byte) (hm : c.moden = true) (hdir : c.dir = .tx)
    (hway : c.owner = true ∨ (c.sel = true ∧ c.srw = true)) :
    c.writeData b = { c with data := b, bnd := false, pend := .txByte b } := by
  rw [BusCore.writeData_eq, if_pos ⟨hm, hdir, hway⟩]

section TxByte

variable {i : BusId} {b : Byte} {s : State} (hm : (s.core i).moden = true) (hp : (s.core i).pend = .none)
include hm hp

/-- An ARBLOST from before the call ends it at once (log entry 37). -/
theorem seqTxByte_stale (ha : (s.core i).arblost = true) :
    seqTxByte i b s =
      (0x20, s.setBus i
        { s.bus i with
          core :=
            { s.core i with
              data := b, bnd := false, arblost := false
              pend :=
                if (s.core i).dir = .tx ∧
                    ((s.core i).owner = true ∨ ((s.core i).sel = true ∧ (s.core i).srw = true)) then .txByte b
                else .none } }) := by
  have hk : (s.core i).writeData b =
      { s.core i with
        data := b, bnd := false
        pend :=
          if (s.core i).dir = .tx ∧ ((s.core i).owner = true ∨ ((s.core i).sel = true ∧ (s.core i).srw = true)) then
            .txByte b
          else .none } := by
    rw [BusCore.writeData_eq]
    simp only [hm, hp, true_and]
  exact (seqTxByte_of_poll (BusCore.ready_of_enabled hm hp) hk (poll_holds (by simp [ha]))).trans
    (seqTxDone_lost true ha)

variable (ha : (s.core i).arblost = false)
include ha

/-- A byte the core does not take stays off the wire. -/
theorem seqTxByte_untaken
    (hx : (s.core i).dir = .rx ∨ ((s.core i).owner = false ∧ ((s.core i).sel = false ∨ (s.core i).srw = false))) :
    seqTxByte i b s = (4, s.setBus i { s.bus i with core := { s.core i with data := b, bnd := false } }) := by
  have hk : (s.core i).writeData b = { s.core i with data := b, bnd := false } := by
    rcases hx with e | ⟨e, e' | e'⟩
    · simp [BusCore.writeData, e]
    · simp [BusCore.writeData, e, e']
    · simp [BusCore.writeData, e, e']
  exact (seqTxByte_of_poll (BusCore.ready_of_enabled hm hp) hk (poll_nothing (by simp [ha]) hp)).trans
    (seqTxDone_gaveUp ha)

variable (hdir : (s.core i).dir = .tx)
  (hway : (s.core i).owner = true ∨ ((s.core i).sel = true ∧ (s.core i).srw = true))
include hdir hway

theorem seqTxByte_withheld (hd : s.drawPoll.1 = .withheld) :
    seqTxByte i b s =
      (4, s.drawPoll.2.setBus i { s.bus i with core := { s.core i with data := b, bnd := false } }) := by
  have hk := BusCore.writeData_taken b hm hdir hway
  rw [← BusCore.with_pend (c := { s.core i with data := b, bnd := false }) hp]
  exact (seqTxByte_of_poll (BusCore.ready_of_enabled hm hp) hk
    (poll_gaveUp (by simp [ha]) Pend.noConfusion (.inl hd))).trans (seqTxDone_gaveUp ha)

/-- A byte taken goes the way the bus step says. -/
theorem seqTxByte_taken {d : BusDraw} (hd : s.drawPoll.1 = .taken d) {x : Bus}
    (hx : ((s.bus i).offered b).busStep d = x) :
    seqTxByte i b s = seqTxDone i (x.core.bnd || x.core.arblost) (s.drawPoll.2.setBus i x) := by
  have hk := BusCore.writeData_taken b hm hdir hway
  have hc : ({ s.core i with data := b, bnd := false, pend := .txByte b } : BusCore).canComplete = true := by
    simpa [BusCore.canComplete, hm] using hway
  rw [seqTxByte_of_poll (BusCore.ready_of_enabled hm hp) hk (poll_taken (b := (s.bus i).offered b) ha hd hc), hx]

/-- A byte done, by its answer. -/
theorem seqTxByte_done {d : BusDraw} (hd : s.drawPoll.1 = .taken d) {x : Bus}
    (hx : ((s.bus i).offered b).busStep d = x)
    (hbnd : x.core.bnd = true) (hlost : x.core.arblost = false) :
    seqTxByte i b s =
      (if x.core.rxnack then 0x10 else 0,
        s.drawPoll.2.setBus i { x with core := { x.core with bnd := false, rxnack := false } }) := by
  rw [seqTxByte_taken hm hp ha hdir hway hd hx, hbnd, hlost]
  exact seqTxDone_done hlost

/-- A byte the bus step neither completes nor loses. -/
theorem seqTxByte_unanswered {d : BusDraw} (hd : s.drawPoll.1 = .taken d) {x : Bus}
    (hx : ((s.bus i).offered b).busStep d = x) (hbnd : x.core.bnd = false) (hlost : x.core.arblost = false) :
    seqTxByte i b s = (4, s.drawPoll.2.setBus i x) := by
  rw [seqTxByte_taken hm hp ha hdir hway hd hx, hbnd, hlost]
  exact seqTxDone_gaveUp hlost

end TxByte

/-- Settles O37: the byte by what the core makes of it and by its answer. -/
theorem sequencerByte : Obligations.SequencerByte := by
  unfold Obligations.SequencerByte
  intro i b s h hp
  refine ⟨fun hm => h.seq_run (seqTxByte_disabled b hm hp), fun hm ha => h.seq_run (seqTxByte_stale hm hp ha),
    fun hm ha => ⟨fun hx => h.seq_run (seqTxByte_untaken hm hp ha hx), fun hdir ho => ?owner,
      fun hdir ho hsel hsrw => ?slave⟩⟩
  case owner =>
    have hstep := fun d => Bus.busStep_ownerByte (b := (s.bus i).offered b) d hm rfl ho
    refine ⟨fun hd => h.seq_run (seqTxByte_withheld hm hp ha hdir (.inl ho) hd), fun d hd htx => ?acked,
      fun d hd htx => ?nacked, fun d hd htx => ?lost⟩
    case acked =>
      have hx := (hstep d).trans ((congrArg _ htx).trans (Bus.ownerByte_acked _ b))
      rw [← BusCore.with_pend (c := { s.core i with data := b, bnd := false, rxnack := false }) hp]
      exact h.seq_run (seqTxByte_done hm hp ha hdir (.inl ho) hd hx rfl ha)
    case nacked =>
      have hx := (hstep d).trans ((congrArg _ htx).trans (Bus.ownerByte_nacked _ b))
      rw [← BusCore.with_pend (c := { s.core i with
        data := b, bnd := false, rxnack := false, busy := false, owner := false }) hp]
      exact h.seq_run (seqTxByte_done hm hp ha hdir (.inl ho) hd hx rfl ha)
    case lost =>
      have hx := (hstep d).trans ((congrArg _ htx).trans (Bus.ownerByte_lost _ b))
      refine h.seq_run ((seqTxByte_taken hm hp ha hdir (.inl ho) hd hx).trans ((seqTxDone_lost _ rfl).trans ?_))
      simp only [State.core_eq] at hp ha
      simp [Bus.offered, State.core_eq, hp, ha]
  case slave =>
    have hway := Or.inr (a := (s.core i).owner = true) (And.intro hsel hsrw)
    refine ⟨fun hd => h.seq_run (seqTxByte_withheld hm hp ha hdir hway hd), fun d hd hs => ?answered,
      fun d hd hs hmatch => ?stopped⟩
    case answered =>
      have hx := Bus.busStep_slaveByte (b := (s.bus i).offered b) d hm rfl ho hsel hsrw ?_
      · have hword : (if (s.core i).rxnack = true ∨ d.ack = .nack then 0x10 else 0 : Word) =
            if (s.core i).rxnack || d.ack == .nack then 0x10 else 0 := by simp
        rw [hword, ← BusCore.with_pend (c := { s.core i with data := b, bnd := false, rxnack := false }) hp]
        exact h.seq_run (seqTxByte_done hm hp ha hdir hway hd hx rfl ha)
      · rintro ⟨hok, hstop⟩
        have hno := BusCore.stopOk_eq_false (k := ((s.bus i).offered b).core)
          (.inl (hs.resolve_left (not_not_intro hstop)))
        exact Bool.false_ne_true (hno.symm.trans hok)
    case stopped =>
      have hok : ((s.bus i).offered b).core.stopOk = true := by
        simp [BusCore.stopOk, Bus.offered, ← State.core_eq, hsel, hmatch]
      have hx := Bus.busStep_abandoned (b := (s.bus i).offered b) d hm rfl ho hok hs
      refine ⟨false, ?_⟩
      rw [← BusCore.with_pend (c := { s.core i with
        data := b, bnd := false, stopf := true, busy := false, sel := false, sel10 := false }) hp]
      exact h.seq_run (seqTxByte_unanswered hm hp ha hdir hway hd hx rfl ha)

/-! ## What a routine of the sequencer depends on, and what it writes (R191, R202) -/

/-- The state with the draws of its polls as given. -/
def State.withPolls (s : State) (p : List PollDraw) (n : Nat) : State :=
  { s with env := { s.env with polls := p, drawn := n } }

/-- All that a routine writes: the core and the end of the trace of its own bus, and the draws made. -/
def State.advance (s : State) (i : BusId) (c : BusCore) (l : List Sym) (p : List PollDraw) (n : Nat) : State :=
  (s.withPolls p n).setBus i { s.bus i with core := c, trace := (s.bus i).trace ++ l }

/-- The changes a routine makes of the core, where `B` holds of every byte it writes. -/
inductive SeqCore (B : Byte → Prop) : (BusCore → BusCore) → Prop where
  | clearFlag (f : Sticky) : SeqCore B (·.clearFlag f)
  | start : SeqCore B .start
  | rstart : SeqCore B .rstart
  | stop : SeqCore B .stop
  | cancel : SeqCore B .cancel
  | setDir (d : Dir) : SeqCore B (·.setDir d)
  | writeData (b : Byte) (h : B b) : SeqCore B (·.writeData b)

/-- `Q`, of the core and the symbols put on the wire so far, is kept by all that a routine does. -/
structure SeqKeeps (B : Byte → Prop) (Q : BusCore → List Sym → Prop) : Prop where
  change : ∀ {f c l}, SeqCore B f → Q c l → Q (f c) l
  step : ∀ {c l} (d : BusDraw), c.canComplete = true → Q c l → Q (c.stepped d) (l ++ c.stepSyms d)

/-- From the core `c`, after the symbols `l`, the answer of `f` and what it writes are decided by the core and the draws
alone, and `Q` holds of what it leaves. -/
def Uniform {α : Type} (i : BusId) (Q : BusCore → List Sym → Prop) (f : State → α × State) (c : BusCore) (l : List Sym)
    (p : List PollDraw) (n : Nat) : Prop :=
  ∃ w c' l' p' n', Q c' l' ∧ ∀ s : State, f (s.advance i c l p n) = (w, s.advance i c' l' p' n')

section Advance

variable (s : State) (i : BusId) (c : BusCore) (l : List Sym) (p : List PollDraw) (n : Nat)

@[simp] theorem State.advance_bus_same :
    (s.advance i c l p n).bus i = { s.bus i with core := c, trace := (s.bus i).trace ++ l } :=
  State.setBus_bus_same ..

@[simp] theorem State.advance_bus_ne {j : BusId} (h : j ≠ i) : (s.advance i c l p n).bus j = s.bus j := by
  rw [State.advance, State.setBus_bus, if_neg h]
  rfl

@[simp] theorem State.advance_core : (s.advance i c l p n).core i = c := by
  rw [State.core_eq, State.advance_bus_same]

/-- A state is itself, advanced by nothing. -/
theorem State.advance_self : s.advance i (s.core i) [] s.env.polls s.env.drawn = s := by
  have h : ({ s.bus i with core := s.core i, trace := (s.bus i).trace ++ [] } : Bus) = s.bus i := by
    rw [List.append_nil]
    rfl
  rw [State.advance, h]
  exact State.setBus_self s i

theorem State.advance_modCore (f : BusCore → BusCore) :
    (s.advance i c l p n).modCore i f = s.advance i (f c) l p n := by
  simp [State.modCore, State.modBus, Bus.modCore, State.advance]

theorem State.advance_busStep (d : BusDraw) (hc : c.canComplete = true) :
    (s.advance i c l p n).busStep i d = s.advance i (c.stepped d) (l ++ c.stepSyms d) p n := by
  rw [State.busStep, State.modBus, State.advance_bus_same, Bus.busStep_eq d hc, List.append_assoc]
  exact State.setBus_setBus ..

/-- The next draw depends on the draws made alone. -/
theorem State.drawPoll_advance (i : BusId) (c : BusCore) (l : List Sym) (p : List PollDraw) (n : Nat) :
    ∃ q p' n', ∀ s : State, (s.advance i c l p n).drawPoll = (q, s.advance i c l p' n') := by
  cases p with
  | nil => exact ⟨Config.freePoll n, [], n + 1, fun s => rfl⟩
  | cons d rest => exact ⟨d, rest, n, fun s => rfl⟩

end Advance

section Uniform

variable {α β : Type} {i : BusId} {B : Byte → Prop} {Q : BusCore → List Sym → Prop} {c : BusCore} {l : List Sym}
  {p : List PollDraw} {n : Nat}

theorem Uniform.answer (h : Q c l) (w : α) : Uniform i Q (fun s => (w, s)) c l p n := ⟨w, c, l, p, n, h, fun _ => rfl⟩

theorem Uniform.bind {f : State → α × State} {g : α → State → β × State} (hf : Uniform i Q f c l p n)
    (hg : ∀ {c l p n} w, Q c l → Uniform i Q (g w) c l p n) : Uniform i Q (fun s => g (f s).1 (f s).2) c l p n := by
  obtain ⟨w, c', l', p', n', hq, hf⟩ := hf
  obtain ⟨w', c'', l'', p'', n'', hq', hg⟩ := hg (p := p') (n := n') w hq
  exact ⟨w', c'', l'', p'', n'', hq', fun s => by dsimp only; rw [hf]; exact hg s⟩

theorem Uniform.modCore {f : BusCore → BusCore} {g : State → α × State} (h : Uniform i Q g (f c) l p n) :
    Uniform i Q (fun s => g (s.modCore i f)) c l p n := by
  obtain ⟨w, c', l', p', n', hq, hg⟩ := h
  exact ⟨w, c', l', p', n', hq, fun s => by dsimp only; rw [State.advance_modCore]; exact hg s⟩

/-- An answer after one more change of the core. -/
theorem Uniform.answerChanged {f : BusCore → BusCore} (h : Q (f c) l) (w : α) :
    Uniform i Q (fun s => (w, s.modCore i f)) c l p n :=
  .modCore (g := fun s => (w, s)) (.answer h w)

variable (hQ : SeqKeeps B Q)
include hQ

theorem uniform_poll (cond : BusCore → Bool) (h : Q c l) : Uniform i Q (poll i cond) c l p n := by
  obtain ⟨q, p', n', hdraw⟩ := State.drawPoll_advance i c l p n
  have given := hQ.change .cancel h
  unfold Uniform poll
  simp only [State.advance_core, hdraw, State.advance_modCore]
  by_cases hcond : cond c = true
  · exact ⟨_, _, _, _, _, h, fun s => if_pos hcond⟩
  · simp only [if_neg hcond]
    by_cases hp : c.pend = .none
    · exact ⟨_, _, _, _, _, h, fun s => if_pos hp⟩
    · simp only [if_neg hp]
      cases q with
      | withheld => exact ⟨_, _, _, _, _, given, fun s => rfl⟩
      | taken d =>
        by_cases hc : c.canComplete = true
        · simp only [if_pos hc, State.advance_busStep _ _ _ _ _ _ _ hc, State.advance_core]
          exact ⟨_, _, _, _, _, hQ.step d hc h, fun s => rfl⟩
        · exact ⟨_, _, _, _, _, given, fun s => if_neg hc⟩

theorem uniform_seqCondition {request : BusCore → BusCore} (cond : BusCore → Bool)
    (h : Q (request (c.clearFlag .startf)) l) : Uniform i Q (seqCondition i request cond) c l p n := by
  refine Uniform.bind (g := fun w t => if w then (0, t.modCore i (·.clearFlag .startf)) else (toStart, t))
    (.modCore (f := fun c => request (c.clearFlag .startf)) (uniform_poll hQ cond h)) fun w h => ?_
  cases w with
  | true => exact .answerChanged (hQ.change (.clearFlag .startf) h) 0
  | false => exact .answer h toStart

theorem uniform_seqStart (h : Q c l) : Uniform i Q (seqStart i) c l p n :=
  uniform_seqCondition hQ _ (hQ.change .start (hQ.change (.clearFlag .startf) h))

theorem uniform_seqRstart (h : Q c l) : Uniform i Q (seqRstart i) c l p n :=
  uniform_seqCondition hQ _ (hQ.change .rstart (hQ.change (.clearFlag .startf) h))

theorem uniform_seqWaitReady (h : Q c l) : Uniform i Q (seqWaitReady i) c l p n :=
  .bind (g := fun w t => (if w then 0 else toReady, t)) (uniform_poll hQ _ h) fun _ h => .answer h _

theorem uniform_seqStop (h : Q c l) : Uniform i Q (seqStop i) c l p n :=
  .bind (g := fun w t => (if w then 0 else toStop, t)) (.modCore (uniform_poll hQ _ (hQ.change .stop h)))
    fun _ h => .answer h _

theorem uniform_seqTxDone (ok : Bool) (h : Q c l) : Uniform i Q (seqTxDone i ok) c l p n := by
  have acked := hQ.change (.clearFlag .bnd) h
  have nacked := hQ.change (.clearFlag .bnd) (hQ.change (.clearFlag .rxnack) h)
  have lost := hQ.change (.clearFlag .arblost) h
  unfold Uniform seqTxDone
  simp only [State.advance_core]
  cases c.arblost with
  | true => exact Uniform.answerChanged lost stArbLost
  | false =>
    cases ok with
    | false => exact Uniform.answer h toByte
    | true =>
      cases c.rxnack with
      | true => exact Uniform.answerChanged nacked stNack
      | false => exact Uniform.answerChanged acked 0

theorem uniform_seqTxByte {b : Byte} (hb : B b) (h : Q c l) : Uniform i Q (seqTxByte i b) c l p n := by
  refine Uniform.bind (g := fun w t =>
    if w ≠ 0 then (w, t)
    else
      let r := poll i (fun c => c.bnd || c.arblost) (t.modCore i (·.writeData b))
      seqTxDone i r.1 r.2) (uniform_seqWaitReady hQ h) fun w h => ?_
  by_cases hw : w ≠ 0
  · simp only [if_pos hw]
    exact .answer h w
  · simp only [if_neg hw]
    exact .bind (.modCore (f := (·.writeData b)) (uniform_poll hQ _ (hQ.change (.writeData b hb) h)))
      fun w h => uniform_seqTxDone hQ w h

omit hQ in
theorem Uniform.seqThen {f g : State → Word × State} (hf : Uniform i Q f c l p n)
    (hg : ∀ {c l p n}, Q c l → Uniform i Q g c l p n) : Uniform i Q (fun s => seqThen (f s) g) c l p n := by
  refine Uniform.bind (g := fun w t => if w = 0 then g t else (w, t)) hf fun w h => ?_
  by_cases hw : w = 0
  · simp only [if_pos hw]
    exact hg h
  · simp only [if_neg hw]
    exact .answer h w

/-- The address bytes, where `B` holds of every byte of the address phase. -/
theorem uniform_seqAddressBytes {owner : Bool} {a : BitVec 10} {addr10 : Bool} {d : WireDir}
    (hB : ∀ b a', Sym.w b a' ∈ addressWire owner a addr10 d → B b) (h : Q c l) :
    Uniform i Q (seqAddressBytes i a addr10 d) c l p n := by
  cases addr10 with
  | false => exact uniform_seqTxByte hQ (hB (ab7 a d) .ack (by simp [addressWire])) h
  | true =>
    have prefixed := uniform_seqTxByte (i := i) (p := p) (n := n) hQ (hB (pfx a .write) .ack (by simp [addressWire])) h
    have low := hB (lowByte a) .ack (by simp [addressWire])
    have written := prefixed.seqThen fun h => uniform_seqTxByte hQ low h
    cases d with
    | write => exact written.seqThen (g := fun s => (0, s)) fun h => .answer h 0
    | read =>
      have last := hB (pfx a .read) .ack (by simp [addressWire])
      exact written.seqThen (g := fun s => Machine.seqThen (seqRstart i s) (seqTxByte i (pfx a .read)))
        fun h => (uniform_seqRstart hQ h).seqThen fun h => uniform_seqTxByte hQ last h

/-- The request that opens an address phase (R200). -/
def BusCore.firstRequest (c : BusCore) : BusCore :=
  if c.owner then (c.clearFlag .startf).rstart else (c.clearFlag .startf).start

theorem SeqKeeps.firstRequest (h : Q c l) : Q c.firstRequest l := by
  have cleared := hQ.change (.clearFlag .startf) h
  unfold BusCore.firstRequest
  split
  · exact hQ.change .rstart cleared
  · exact hQ.change .start cleared

/-- SEQ_ADDRESS depends on the target's address besides; what was pending counts for nothing once its first request has
been made. -/
theorem uniform_seqAddress {a : BitVec 10} {addr10 : Bool} {d : WireDir}
    (hB : ∀ b a', Sym.w b a' ∈ addressWire c.owner a addr10 d → B b) (h : Q c.firstRequest l) :
    ∃ w c' l' p' n', Q c' l' ∧ ∀ s : State, (s.m i).slaveAddr = a → (s.m i).addr10 = addr10 →
      seqAddress i d (s.advance i c l p n) = (w, s.advance i c' l' p' n') := by
  have opened : Uniform i Q (fun s => if c.owner then seqRstart i s else seqStart i s) c l p n := by
    unfold BusCore.firstRequest at h
    cases ho : c.owner with
    | true => exact uniform_seqCondition hQ _ (by simpa [ho] using h)
    | false => exact uniform_seqCondition hQ _ (by simpa [ho] using h)
  obtain ⟨w, c', l', p', n', hq, hrun⟩ := opened.seqThen (g := fun t =>
    seqAddressBytes i a addr10 d (t.modCore i (·.setDir .tx)))
    fun h => .modCore (uniform_seqAddressBytes hQ hB (hQ.change (.setDir .tx) h))
  refine ⟨w, c', l', p', n', hq, fun s ha h10 => ?_⟩
  rw [← hrun s, seqAddress, State.advance_core, State.m_eq, State.advance_bus_same]
  subst ha h10
  rfl

end Uniform

/-! ## What every routine leaves alone -/

theorem BusCore.settings_keeps (c₀ : BusCore) :
    SeqKeeps (fun _ => True) fun c _ => c.settings = c₀.settings where
  change {f c l} hf h := by
    refine Eq.trans ?_ h
    cases hf with
    | clearFlag f => cases f <;> rfl
    | start => rw [c.start_eq]; rfl
    | rstart => rw [c.rstart_eq]; rfl
    | stop => rw [c.stop_eq]; rfl
    | cancel => rfl
    | setDir d => rfl
    | writeData b => rfl
  step d hc h := by
    obtain ⟨-, hset, -⟩ := BusCore.stepped_completes d hc
    exact hset.trans h

/-- `t` is `s` but for the core, the trace and the draws of bus `i`, and RET; the settings of the core are as before. -/
def OnlyCore (i : BusId) (s t : State) : Prop :=
  ∃ c l p n w, c.settings = (s.core i).settings ∧ t = (s.advance i c l p n).setRetWord w

/-- A command turned away writes RET alone. -/
theorem OnlyCore.reject (i : BusId) (s : State) (r : Result) : OnlyCore i s (s.setRet r) :=
  ⟨_, _, _, _, r.code, rfl, by rw [State.advance_self]; rfl⟩

/-- A routine whose answer and effect the core and the draws decide answers a state like that, admitted or not. -/
theorem OnlyCore.sequencer {i : BusId} {s : State} (k : OpClass) {f : State → Word × State} {w : Word} {c : BusCore}
    {l : List Sym} {p : List PollDraw} {n : Nat} (hc : c.settings = (s.core i).settings)
    (hf : f s = (w, s.advance i c l p n)) : ∃ t, sequencer k i f s = .next t ∧ OnlyCore i s t := by
  unfold Machine.sequencer admitted
  cases (s.bus i).turnAway k with
  | some r => exact ⟨_, rfl, .reject i s r⟩
  | none => exact ⟨_, rfl, c, l, p, n, w, hc, by rw [hf]⟩

theorem OnlyCore.uniform {i : BusId} {s : State} (k : OpClass) {f : State → Word × State}
    (h : Uniform i (fun c _ => c.settings = (s.core i).settings) f (s.core i) [] s.env.polls s.env.drawn) :
    ∃ t, Machine.sequencer k i f s = .next t ∧ OnlyCore i s t := by
  obtain ⟨w, c, l, p, n, hc, hf⟩ := h
  exact OnlyCore.sequencer k hc (by rw [← hf, State.advance_self])

theorem OnlyCore.exec {x : Instr} {s : State} (hx : x.isSequencer = true) :
    ∃ t, exec x s = .next t ∧ OnlyCore x.inst s t := by
  cases x with
  | seqStart i => exact OnlyCore.uniform .seq (uniform_seqStart (BusCore.settings_keeps _) rfl)
  | seqRstart i => exact OnlyCore.uniform .seq (uniform_seqRstart (BusCore.settings_keeps _) rfl)
  | seqWaitReady i => exact OnlyCore.uniform .seq (uniform_seqWaitReady (BusCore.settings_keeps _) rfl)
  | seqTxByte i b => exact OnlyCore.uniform .seq (uniform_seqTxByte (BusCore.settings_keeps _) trivial rfl)
  | seqStop i => exact OnlyCore.uniform .seq (uniform_seqStop (BusCore.settings_keeps _) rfl)
  | seqAddress i d =>
    obtain ⟨w, c, l, p, n, hc, hf⟩ := uniform_seqAddress (i := i) (l := []) (p := s.env.polls) (n := s.env.drawn)
      (BusCore.settings_keeps (s.core i)) (fun _ _ _ => trivial)
      ((BusCore.settings_keeps _).firstRequest (l := []) rfl)
    exact OnlyCore.sequencer .seqAddress hc (by rw [← hf s rfl rfl, State.advance_self])
  | _ => cases hx

/-- Settles O39: the answer is the state advanced, or the command turned away. -/
theorem sequencerTouchesOnlyTheCore : Obligations.SequencerTouchesOnlyTheCore := by
  unfold Obligations.SequencerTouchesOnlyTheCore
  intro x s hx
  obtain ⟨t, ht, c, l, p, n, w, hset, rfl⟩ := OnlyCore.exec hx
  have field {α : Type} (f : BusCore → α) (hf : ∀ k : BusCore, f k = f k.settings) : f c = f (s.core x.inst) :=
    (hf c).trans ((congrArg f hset).trans (hf _).symm)
  refine ⟨_, ht, rfl, fun j hj => s.advance_bus_ne _ c l p n hj, ?_, ⟨l, ?_⟩, ?_⟩
  · simp [State.core_eq]
  · simp
  · simp only [State.core_eq, State.setRetWord_bus, State.advance_bus_same] at field ⊢
    and_intros <;> exact field _ fun _ => rfl

/-! ## The address phase of a master start (R200, R351) -/

/-- The ownership invariant; only bytes of which `B` holds are on the wire or pending. -/
structure AddressOnly (B : Byte → Prop) (c : BusCore) (l : List Sym) : Prop where
  ok : c.ok = true
  sent : ∀ b a, Sym.w b a ∈ l → B b
  pending : ∀ b, c.pend = .txByte b → B b

theorem SeqCore.engineCore {B : Byte → Prop} {f : BusCore → BusCore} (h : SeqCore B f) : EngineCore f := by
  cases h with
  | clearFlag f => exact .clearFlag f
  | start => exact .start
  | rstart => exact .rstart
  | stop => exact .stop
  | cancel => exact .cancel
  | setDir d => exact .setDir d
  | writeData b => exact .writeData b

theorem pend_of_ite {q : Prop} [Decidable q] {x y : Pend} {b : Byte} (h : (if q then x else y) = .txByte b)
    (hx : x ≠ .txByte b) : y = .txByte b := by
  split at h
  · exact absurd h hx
  · exact h

/-- A byte pending after a change was pending before, or is the byte written. -/
theorem SeqCore.pending {B : Byte → Prop} {f : BusCore → BusCore} (hf : SeqCore B f) {c : BusCore}
    (h : ∀ b, c.pend = .txByte b → B b) {b : Byte} (hb : (f c).pend = .txByte b) : B b := by
  cases hf with
  | clearFlag f => exact h b ((c.clearFlag_pend f).symm.trans hb)
  | start =>
    rw [c.start_eq] at hb
    exact h b (pend_of_ite hb Pend.noConfusion)
  | rstart =>
    rw [c.rstart_eq] at hb
    exact h b (pend_of_ite hb Pend.noConfusion)
  | stop =>
    rw [c.stop_eq] at hb
    exact h b (pend_of_ite hb Pend.noConfusion)
  | cancel => cases hb
  | setDir d => exact h b hb
  | writeData v hv =>
    dsimp only [BusCore.writeData] at hb
    split at hb
    · cases hb
      exact hv
    · exact h b hb

theorem AddressOnly.keeps (B : Byte → Prop) : SeqKeeps B (AddressOnly B) where
  change hf h := ⟨hf.engineCore.ok _ h.ok, h.sent, fun _ => hf.pending h.pending⟩
  step {c l} d hc h := by
    obtain ⟨hp, -, hsyms⟩ := BusCore.stepped_completes d hc
    refine ⟨Bus.busStep_ok { core := c } d h.ok, fun b a hb => ?_, fun b hb => ?_⟩
    · rcases List.mem_append.mp hb with old | new
      · exact h.sent b a old
      · exact h.pending b (hsyms b a new)
    · rw [hp] at hb
      cases hb

/-- The first request of a master takes the place of what was pending; with the module disabled nothing is pending. -/
theorem AddressOnly.firstRequest (B : Byte → Prop) {c : BusCore} (hok : c.ok = true) (hm : c.mstr = true) :
    AddressOnly B c.firstRequest [] := by
  have hpend : ∀ b, c.firstRequest.pend ≠ .txByte b := by
    intro b
    grind [BusCore.ok, BusCore.pendOk, BusCore.firstRequest, BusCore.rstart, BusCore.start, BusCore.clearFlag]
  have hfirst : c.firstRequest.ok = true := by
    unfold BusCore.firstRequest
    split
    · exact EngineCore.rstart.ok _ ((c.ok_clearFlag .startf).trans hok)
    · exact EngineCore.start.ok _ ((c.ok_clearFlag .startf).trans hok)
  exact ⟨hfirst, fun _ _ h => absurd h List.not_mem_nil, fun b h => absurd h (hpend b)⟩

/-- `SEQ_ADDRESS` from the core `k` and the draws as they stand answers `w` and writes the same on every such state. -/
theorem seqAddress_decided (i : BusId) (d : WireDir) {k : BusCore} (a : BitVec 10) (addr10 : Bool)
    (p : List PollDraw) (n : Nat) (hok : k.ok = true) (hm : k.mstr = true) :
    ∃ w c l p' n', AddressOnly (fun b => ∃ a', Sym.w b a' ∈ addressWire k.owner a addr10 d) c l ∧
      ∀ s : State, s.core i = k → s.env.polls = p → s.env.drawn = n → (s.m i).slaveAddr = a → (s.m i).addr10 = addr10 →
        seqAddress i d s = (w, s.advance i c l p' n') := by
  obtain ⟨w, c, l, p', n', hq, hrun⟩ := uniform_seqAddress (i := i) (p := p) (n := n)
    (AddressOnly.keeps fun b => ∃ a', Sym.w b a' ∈ addressWire k.owner a addr10 d) (fun b a' h => ⟨a', h⟩)
    (AddressOnly.firstRequest _ hok hm)
  refine ⟨w, c, l, p', n', hq, ?_⟩
  rintro s rfl rfl rfl ha h10
  rw [← hrun s ha h10, State.advance_self]

/-! ## How a start ends (R227, R246) -/

/-- The bus `y` is in the data phase of the transfer it began as `x`, the symbols `l` on the wire. -/
structure DataPhase (d : Dir) (stop : Bool) (l : List Sym) (x y : Bus) : Prop where
  role : y.role = x.role
  phase : y.phase = .data
  trace : y.trace = x.trace ++ l
  cbtrace : y.cbtrace = x.cbtrace
  sem : y.sem = x.sem
  wait : y.wait = x.wait
  blocking : y.m.blocking = x.m.blocking
  idle : y.m.idle = false
  result : y.m.lastResult = .busy
  stops : y.m.stopOnCompletion = stop
  tx : y.m.txBuf.isSome = (d == .tx)
  rx : y.m.rxBuf.isSome = (d == .rx)

/-- The transfer that the bus `y` began as `x` has ended with the result `r`, the symbols `l` on the wire. -/
structure StartEnded (i : BusId) (r : Result) (l : List Sym) (x y : Bus) : Prop where
  role : y.role = x.role
  phase : y.phase = .idle
  trace : y.trace = x.trace ++ l
  cbtrace : y.cbtrace = x.cbtrace ++
    match x.m.cb with
    | .none => []
    | .some user => [⟨i, .error, user⟩]
  wait : y.wait = x.wait
  idle : y.m.idle = true
  result : y.m.lastResult = r
  tx : y.m.txBuf = .none
  rx : y.m.rxBuf = .none
  sources : y.core.bndie = false ∧ y.core.nackie = false ∧ y.core.arbie = false

/-- A master's bus after the common tail of its exits (R246, R250). -/
theorem masterClose_bus (i : BusId) (r : Result) (s : State) :
    (masterClose i r s).bus i =
      { s.bus i with
        m := (s.m i).modX fun x => { x.unsetBufs with lastResult := r, idle := true }
        phase := .idle
        sem := if (s.m i).blocking then (s.bus i).sem + 1 else (s.bus i).sem } := by
  unfold masterClose masterIdle
  cases hb : (s.m i).blocking <;>
    simp_all [State.m_eq, Bus.postM, Bus.semPost, Bus.modM, Bus.setPhase, MCtx.modX, Xfer.unsetBufs, Xfer.unsetTx,
      Xfer.unsetRx]

/-- The owner's stop writes the core and at most one symbol, and no source of interrupts. -/
theorem seqStop_owner_bus {i : BusId} {s : State} (hok : (s.core i).ok = true) (ho : (s.core i).owner = true) :
    (seqStop i s).2.bus i = (s.bus i).stopped ∨ (seqStop i s).2.bus i = (s.bus i).givenUp := by
  cases hd : s.drawPoll.1 with
  | withheld => exact .inr (by rw [seqStop_owner_withheld hok ho hd, State.setBus_bus_same])
  | taken d => exact .inl (by rw [seqStop_owner_taken hok ho hd, State.setBus_bus_same])

theorem dmaStopIf_bus (x : Xfer) (s : State) (j : BusId) : (dmaStopIf x s).bus j = s.bus j := by
  unfold dmaStopIf
  split <;> rfl

theorem exitStop_bus {i : BusId} {s : State} (hok : (s.core i).ok = true) (q : Prop) [Decidable q] :
    ∃ c k, (if q ∧ (s.core i).owner then (seqStop i s).2 else s).bus i =
        { s.bus i with core := c, trace := (s.bus i).trace ++ k } ∧
      c.sources = (s.core i).sources ∧ (k = [] ∨ (k = [.p] ∧ q)) := by
  have nothing : s.bus i = { s.bus i with core := s.core i, trace := (s.bus i).trace ++ [] } := by
    rw [List.append_nil]
    rfl
  split
  · rename_i h
    rcases seqStop_owner_bus hok h.2 with e | e
    · exact ⟨_, [.p], e, rfl, .inr ⟨rfl, h.1⟩⟩
    · exact ⟨(s.bus i).givenUp.core, [], by rw [e, List.append_nil]; rfl, rfl, .inl rfl⟩
  · exact ⟨_, [], nothing, rfl, .inl rfl⟩

theorem Bus.notify_cbtrace_master {b : Bus} (h : b.role = .master) (i : BusId) (e : Event) :
    (b.notify i e).cbtrace = b.cbtrace ++
      match b.m.cb with
      | .none => []
      | .some user => [⟨i, e, user⟩] := by
  unfold Bus.notify
  rw [b.ctx_master h]
  split <;> simp_all

/-- R246: the error exit ends the transfer, with a stop at most after ERROR. -/
theorem masterErrorExit_ended {i : BusId} (r : Result) {s : State} (hrole : (s.bus i).role = .master)
    (hok : (s.core i).ok = true) :
    ∃ k, StartEnded i r k (s.bus i) ((masterErrorExit i r s).bus i) ∧ (k = [] ∨ (k = [.p] ∧ r = .error)) := by
  unfold masterErrorExit
  obtain ⟨t, ht, hbus⟩ : ∃ t, dmaStopIf (s.m i).toXfer ((s.setPhase i .error).modCore i .transportDisarm) = t ∧
      t.bus i = { s.bus i with phase := .error, core := (s.core i).transportDisarm } :=
    ⟨_, rfl, by rw [dmaStopIf_bus, State.modCore_bus_same, State.setPhase_bus_same]; rfl⟩
  have hcore : t.core i = (s.core i).transportDisarm := by rw [State.core_eq, hbus]
  have hstop := exitStop_bus (i := i) (s := t) (hcore ▸ EngineCore.transportDisarm.ok _ hok) (r = .error)
  rw [hbus, hcore] at hstop
  obtain ⟨c, k, hu, hsrc, hk⟩ := hstop
  rw [ht]
  dsimp only
  rw [hcore]
  generalize (if r = .error ∧ (s.core i).transportDisarm.owner then (seqStop i t).2 else t) = u at hu ⊢
  have hrole' : ((masterClose i r u).bus i).role = .master := by rw [masterClose_bus, hu]; exact hrole
  refine ⟨k, ?_, hk⟩
  rw [State.notify_bus_same]
  constructor
  case cbtrace =>
    rw [Bus.notify_cbtrace_master hrole', masterClose_bus, State.m_eq, hu]
    rfl
  case sources =>
    have off : c.bndie = false ∧ c.nackie = false ∧ c.arbie = false := by
      injection hsrc with hb hsrc
      injection hsrc with hn hsrc
      injection hsrc with ha
      exact ⟨hb, hn, ha⟩
    rw [Bus.notify_core, masterClose_bus, hu]
    exact off
  all_goals simp [masterClose_bus, State.m_eq, hu, Xfer.unsetBufs, Xfer.unsetTx, Xfer.unsetRx]

theorem dmaBulk_bus (i : BusId) (c : Chan) (a b : Endpoint) (n : Word) (d : DmaDir) (r : Dir) (s : State) :
    (dmaBulk i c a b n d r s).bus i =
      { s.bus i with core := ((s.core i).setEnable .bndie false).setDmareq r true } := by
  simp [dmaBulk, dmaStart, dmaInstall, dmaConfigure, Bus.modCore, State.core_eq]

theorem bulkIf_bus (q : Prop) [Decidable q] (i : BusId) (c : Chan) (a b : Endpoint) (n : Word) (d : DmaDir) (r : Dir)
    (s : State) : ∃ k, (if q then dmaBulk i c a b n d r s else s).bus i = { s.bus i with core := k } := by
  split
  · exact ⟨_, dmaBulk_bus ..⟩
  · exact ⟨_, rfl⟩

/-- The kick of a send hands over the first byte (R234, R355). -/
theorem masterKickSend_bus {i : BusId} (n : Word) {s : State} (h : (s.m i).txRemaining ≠ 0) :
    ∃ c, (masterKickSend i n s).bus i = { s.bus i with core := c, m := (s.m i).modX (·.advanceTx 1) } := by
  unfold masterKickSend
  obtain ⟨k, hk⟩ := bulkIf_bus ((s.m i).transport = .dma ∧ 2 ≤ n) i (s.m i).dmaChannel
    (.mem (bufAddr (s.m i).txBuf + 1)) (.data i) (n - 1) .mem2dev .tx s
  dsimp only
  generalize (if (s.m i).transport = .dma ∧ 2 ≤ n then _ else s) = t at hk ⊢
  have hm : t.m i = s.m i := by rw [State.m_eq, hk]; rfl
  rw [masterSendStep, hm, if_pos h, State.modCore_bus_same, State.modMX_bus_same, hk]
  exact ⟨_, rfl⟩

/-- The kick of a receive requests the first byte (R355). -/
theorem masterKickRecv_bus (i : BusId) (n : Word) (s : State) :
    ∃ c, (masterKickRecv i n s).bus i = { s.bus i with core := c } := by
  unfold masterKickRecv
  obtain ⟨k, hk⟩ := bulkIf_bus ((s.m i).transport = .dma ∧ 3 ≤ n) i (s.m i).dmaChannel
    (.data i) (.mem (bufAddr (s.m i).rxBuf)) (n - 2) .dev2mem .rx s
  rw [State.modCore_bus_same, hk]
  exact ⟨_, rfl⟩

/-! ## A master start, from the outcome of its address phase (R227) -/

/-- The state in which the address phase of a start runs. -/
def State.begun (s : State) (i : BusId) (kind : Dir) (buf len : Word) (stop : Bool) : State :=
  ((s.modM i (·.begin kind buf len stop)).modCore i .transportArm).setPhase i .address

/-- `TransportKick(i)` of R227, by the kind of the transfer. -/
def masterKick (i : BusId) (kind : Dir) (n : Word) (s : State) : State :=
  match kind with
  | .tx => masterKickSend i n s
  | .rx => masterKickRecv i n s

/-- What the kick makes of the master context. -/
def MCtx.kicked (m : MCtx) (kind : Dir) : MCtx :=
  match kind with
  | .tx => m.modX (·.advanceTx 1)
  | .rx => m

theorem masterKick_bus {i : BusId} {kind : Dir} (n : Word) {s : State} (h : kind = .tx → (s.m i).txRemaining ≠ 0) :
    ∃ c, (masterKick i kind n s).bus i = { s.bus i with core := c, m := (s.m i).kicked kind } := by
  cases kind with
  | tx => exact masterKickSend_bus n (h rfl)
  | rx => exact masterKickRecv_bus i n s

section Begin

variable {i : BusId} {kind : Dir} {buf len : Word} {stop : Bool} {s : State}

theorem State.begun_bus : (s.begun i kind buf len stop).bus i =
    { s.bus i with
      core := (s.core i).transportArm, m := (s.m i).begin kind buf len stop, phase := .address } := by
  simp [State.begun, Bus.modCore, Bus.modM, Bus.setPhase, State.core_eq, State.m_eq]

theorem masterBegin_of_address {w : Word} {t : State}
    (hr : seqAddress i (wireOf kind) (s.begun i kind buf len stop) = (w, t)) :
    masterBegin i kind buf len stop s =
      if w ≠ 0 then
        (((masterErrorExit i (classify w) t).m i).lastResult, masterErrorExit i (classify w) t)
      else (.success, masterKick i kind len (t.setPhase i .data)) := by
  unfold masterBegin
  rw [← State.begun, hr]
  cases kind <;> rfl

variable {c : BusCore} {l : List Sym} {p : List PollDraw} {n : Nat}

/-- An address phase that answers 0 leads to the data phase. -/
theorem masterBegin_runs (hlen : len ≠ 0)
    (hr : seqAddress i (wireOf kind) (s.begun i kind buf len stop) =
      (0, (s.begun i kind buf len stop).advance i c l p n)) :
    ∃ t, masterBegin i kind buf len stop s = (.success, t) ∧ DataPhase kind stop l (s.bus i) (t.bus i) := by
  refine ⟨_, masterBegin_of_address hr, ?_⟩
  have hdata : (((s.begun i kind buf len stop).advance i c l p n).setPhase i .data).bus i =
      { s.bus i with
        core := c, m := (s.m i).begin kind buf len stop, phase := .data, trace := (s.bus i).trace ++ l } := by
    rw [State.setPhase_bus_same, State.advance_bus_same, State.begun_bus]
    rfl
  obtain ⟨k, hk⟩ := masterKick_bus len (kind := kind)
    (s := ((s.begun i kind buf len stop).advance i c l p n).setPhase i .data)
    (by rw [State.m_eq, hdata]; rintro rfl; exact hlen)
  rw [hk, State.m_eq, hdata]
  cases kind <;> constructor <;> rfl

/-- Any other answer leads to the error exit. -/
theorem masterBegin_fails {w : Word} (hw : w ≠ 0) (hrole : (s.bus i).role = .master) (hok : c.ok = true)
    (hr : seqAddress i (wireOf kind) (s.begun i kind buf len stop) =
      (w, (s.begun i kind buf len stop).advance i c l p n)) :
    ∃ t k, masterBegin i kind buf len stop s = (classify w, t) ∧
      StartEnded i (classify w) (l ++ k) (s.bus i) (t.bus i) ∧ (k = [] ∨ (k = [.p] ∧ classify w = .error)) := by
  have hrun := masterBegin_of_address hr
  rw [if_pos hw] at hrun
  have hbus : ((s.begun i kind buf len stop).advance i c l p n).bus i =
      { s.bus i with
        core := c, m := (s.m i).begin kind buf len stop, phase := .address, trace := (s.bus i).trace ++ l } := by
    rw [State.advance_bus_same, State.begun_bus]
  obtain ⟨k, hended, hk⟩ := masterErrorExit_ended (classify w)
    (s := (s.begun i kind buf len stop).advance i c l p n) (by rw [hbus]; exact hrole)
    (by rw [State.advance_core]; exact hok)
  rw [State.m_eq, hended.result] at hrun
  have hcb : ((s.m i).begin kind buf len stop).cb = (s.m i).cb := by cases kind <;> rfl
  rw [hbus] at hended
  refine ⟨_, k, hrun, ⟨hended.role, hended.phase, ?_, ?_, hended.wait, hended.idle, hended.result, hended.tx, hended.rx,
    hended.sources⟩, hk⟩
  · rw [hended.trace, List.append_assoc]
  · rw [hended.cbtrace]
    dsimp only
    rw [hcb]
    rfl

end Begin

/-! ## The status word and the result (R118, R201) -/

theorem getLsbD_five_iff (w : Word) : w.getLsbD 5 = true ↔ w &&& 0x20 ≠ 0 := by
  have h : (0x20 : Word) = BitVec.twoPow 32 5 := by decide
  rw [h, BitVec.and_twoPow]
  cases w.getLsbD 5 with
  | false => simp
  | true => simp only [if_true, true_iff]; decide

theorem classify_of_ne_zero {w : Word} (h : w ≠ 0) :
    classify w = if w &&& 0x20 ≠ 0 then .arbitrationLost else if w &&& 0x0F ≠ 0 then .error else .receivedNack := by
  rw [classify, if_neg h]
  simp only [getLsbD_five_iff]

theorem classify_failure {w : Word} (h : w ≠ 0) :
    classify w = .error ∨ classify w = .receivedNack ∨ classify w = .arbitrationLost := by
  rw [classify_of_ne_zero h]
  split
  · exact .inr (.inr rfl)
  · split
    · exact .inl rfl
    · exact .inr (.inl rfl)

theorem classify_ne_success {w : Word} (h : w ≠ 0) : classify w ≠ .success := by
  rcases classify_failure h with e | e | e <;> simp [e]

/-! ## The four start commands (R225, R230, R382, R383) -/

/-- A start command, by direction and blocking. -/
def startCommand (i : BusId) (d : Dir) (blk stop : Bool) (s : State) : Res :=
  if blk then masterStartBlk i d stop s else masterStart i d stop s

/-- The state from which a start command begins its transfer. -/
def State.beforeStart (s : State) (i : BusId) (blk : Bool) : State :=
  if blk then (s.modMX i fun x => { x with blocking := true }).modBus i .semClear else s

/-- Blocking or not, the address phase starts from the same core, draws and target. -/
theorem State.beforeStart_begun (s : State) (i : BusId) (blk : Bool) (d : Dir) (buf len : Word) (stop : Bool) :
    ((s.beforeStart i blk).begun i d buf len stop).core i = (s.core i).transportArm ∧
      ((s.beforeStart i blk).begun i d buf len stop).env = s.env ∧
      (((s.beforeStart i blk).begun i d buf len stop).m i).slaveAddr = (s.m i).slaveAddr ∧
      (((s.beforeStart i blk).begun i d buf len stop).m i).addr10 = (s.m i).addr10 := by
  simp only [State.core_eq, State.m_eq, State.begun_bus]
  unfold State.beforeStart State.begun
  cases blk <;> cases d <;>
    simp [MCtx.begin, Xfer.holdTx, Xfer.holdRx, Xfer.setTx, Xfer.setRx, Xfer.unsetTx, Xfer.unsetRx]

theorem State.beforeStart_role (s : State) (i : BusId) (blk : Bool) :
    ((s.beforeStart i blk).bus i).role = (s.bus i).role := by
  cases blk <;> simp [State.beforeStart]

/-- The bus with the caller of a blocking command suspended on it; for any other command the bus itself. -/
def Bus.suspended (b : Bus) (blk : Bool) (timeout : Word) : Bus :=
  if blk then { b with m := b.m.modX fun x => { x with blocking := true }, sem := 0, wait := .some timeout } else b

theorem exec_startCommand {i : BusId} {d : Dir} {blk stop : Bool} {x : Instr} {s : State}
    (hx : x = match d, blk with
      | .tx, false => .mSend i stop
      | .rx, false => .mRecv i stop
      | .tx, true => .mSendBlk i stop
      | .rx, true => .mRecvBlk i stop) : exec x s = startCommand i d blk stop s := by
  subst hx
  cases d with
  | tx => cases blk <;> rfl
  | rx => cases blk <;> rfl

theorem Bus.suspended_role (b : Bus) (blk : Bool) (t : Word) : (b.suspended blk t).role = b.role := by
  cases blk <;> rfl

theorem Bus.suspended_trace (b : Bus) (blk : Bool) (t : Word) : (b.suspended blk t).trace = b.trace := by
  cases blk <;> rfl

theorem Bus.suspended_cbtrace (b : Bus) (blk : Bool) (t : Word) : (b.suspended blk t).cbtrace = b.cbtrace := by
  cases blk <;> rfl

theorem startCommand_frame {i : BusId} {d : Dir} {blk stop : Bool} {s t : State}
    (h : startCommand i d blk stop s = .next t) :
    t.mem = s.mem ∧ t.params = s.params ∧ ∀ j, j ≠ i → t.bus j = s.bus j := by
  have closed : WireClosed i fun t => t.mem = s.mem ∧ t.params = s.params :=
    wireClosed_of_params_mem (fun _ _ hp hm h => ⟨hm.trans h.1, hp.trans h.2⟩) i
  cases blk with
  | false =>
    obtain ⟨hm, hp⟩ := closed.masterStart ⟨rfl, rfl⟩ h
    exact ⟨hm, hp, (OpFrame.masterStart (a := 0) h).others⟩
  | true =>
    obtain ⟨hm, hp⟩ := closed.masterStartBlk ⟨rfl, rfl⟩ h
    exact ⟨hm, hp, (OpFrame.masterStartBlk (a := 0) h).others⟩

section Start

variable {i : BusId} {d : Dir} (blk : Bool) {stop : Bool} {s : State} (h : IdleMaster i s) (hbuf : GoodBuffer s)
include h hbuf

theorem startCommand_run {r : Result} {t : State}
    (hr : masterBegin i d s.port.arg0 s.port.arg1 stop (s.beforeStart i blk) = (r, t)) :
    startCommand i d blk stop s = .next (
      if blk = false then t.setRet r
      else if r = .success then t.modBus i fun b => { b with wait := .some s.port.arg2 }
      else (t.modMX i fun x => { x with blocking := false }).setRet r) := by
  have hadmit : (s.bus i).turnAway .mStart = .none := h.idleAt.turnAway (by rw [h.role]; rfl)
  cases blk with
  | false =>
    show masterStart i d stop s = _
    rw [masterStart, admitted_run hadmit, withBuffer_good hbuf]
    exact congrArg (fun r : Result × State => Host.Outcome.next (r.2.setRet r.1)) hr
  | true =>
    show masterStartBlk i d stop s = _
    rw [State.beforeStart, if_pos rfl] at hr
    rw [masterStartBlk, admitted_run hadmit, withBuffer_good hbuf]
    simp only [hr]
    by_cases hs : r = .success <;> simp [hs]

theorem startCommand_runs {l : List Sym} {t : State}
    (hr : masterBegin i d s.port.arg0 s.port.arg1 stop (s.beforeStart i blk) = (.success, t))
    (ht : DataPhase d stop l ((s.beforeStart i blk).bus i) (t.bus i)) :
    ∃ u, startCommand i d blk stop s = .next u ∧
      DataPhase d stop l ((s.bus i).suspended blk s.port.arg2) (u.bus i) ∧ (blk = false → u.port.ret = 0) := by
  refine ⟨_, startCommand_run blk h hbuf hr, ?_⟩
  cases blk with
  | false => exact ⟨ht, fun _ => rfl⟩
  | true =>
    rw [State.beforeStart, if_pos rfl, State.modBus_bus_same, State.modMX_bus_same] at ht
    simp only [Bool.true_eq_false, if_false, if_true, State.modBus_bus_same, false_implies, and_true]
    exact { ht with wait := rfl }

theorem startCommand_ends {r : Result} (hne : r ≠ .success) {l : List Sym} {t : State}
    (hr : masterBegin i d s.port.arg0 s.port.arg1 stop (s.beforeStart i blk) = (r, t))
    (ht : StartEnded i r l ((s.beforeStart i blk).bus i) (t.bus i)) :
    ∃ u, startCommand i d blk stop s = .next u ∧ StartEnded i r l (s.bus i) (u.bus i) ∧ u.port.ret = r.code ∧
      (blk = true → (u.m i).blocking = false) := by
  refine ⟨_, startCommand_run blk h hbuf hr, ?_⟩
  cases blk with
  | false => exact ⟨ht, rfl, Bool.noConfusion⟩
  | true =>
    rw [State.beforeStart, if_pos rfl, State.modBus_bus_same, State.modMX_bus_same] at ht
    simp only [Bool.true_eq_false, if_false, hne, State.m_eq, State.setRet_bus, State.modMX_bus_same, State.setRet_ret]
    exact ⟨{ ht with }, trivial, fun _ => rfl⟩

end Start

/-! ## The core as TransportArm leaves it (R351) -/

theorem BusCore.transportArm_eq (c : BusCore) :
    c.transportArm =
      { c with
        startf := false, bnd := false, rxnack := false, arblost := false, nackie := true, arbie := true
        bndie := true } := by
  simp only [BusCore.transportArm, BusCore.clearFlag, BusCore.setEnable]

theorem BusCore.transportArm_owner (c : BusCore) : c.transportArm.owner = c.owner := by
  rw [c.transportArm_eq]

/-- The state with its core armed for a master transfer. -/
def State.withArmed (s : State) (i : BusId) : State :=
  s.setBus i
    { s.bus i with
      core :=
        { s.core i with
          startf := false, bnd := false, rxnack := false, arblost := false, nackie := true, arbie := true
          bndie := true } }

theorem State.withArmed_bus (s : State) (i : BusId) :
    (s.withArmed i).bus i = { s.bus i with core := (s.core i).transportArm } := by
  rw [BusCore.transportArm_eq]
  exact State.setBus_bus_same ..

theorem IdleMaster.withArmed {i : BusId} {s : State} (h : IdleMaster i s) : IdleMaster i (s.withArmed i) where
  role := by rw [State.withArmed_bus]; exact h.role
  wait := by rw [State.withArmed_bus]; exact h.wait
  idle := by rw [State.m_eq, State.withArmed_bus]; exact h.idle

/-- Settles O42: the status of the address phase, which the core and the draws decide, tells the data phase from the
error exit. -/
theorem masterStartRunsOrEnds : Obligations.MasterStartRunsOrEnds := by
  unfold Obligations.MasterStartRunsOrEnds
  intro i d blk stop x s h hbuf hok hm hx
  have hexec : exec x s = startCommand i d blk stop s := exec_startCommand hx
  have armed : (s.core i).transportArm.ok = true := EngineCore.transportArm.ok _ hok
  have hm' : (s.core i).transportArm.mstr = true := by rw [BusCore.transportArm_eq]; exact hm
  obtain ⟨w, c, l, p, n, hq, hdecided⟩ :=
    seqAddress_decided i (wireOf d) (s.m i).slaveAddr (s.m i).addr10 s.env.polls s.env.drawn armed hm'
  have hu : exec (.seqAddress i (wireOf d)) (s.withArmed i) =
      .next (((s.withArmed i).advance i c l p n).setRetWord w) := by
    rw [exec]
    refine h.withArmed.idleAt.sequencer_run (by rw [h.withArmed.role]; rfl) (hdecided _ ?_ rfl rfl ?_ ?_)
    all_goals simp [State.core_eq, State.m_eq, State.withArmed_bus]
  obtain ⟨hcore, henv, haddr, h10⟩ := s.beforeStart_begun i blk d s.port.arg0 s.port.arg1 stop
  have hb := hdecided _ hcore (congrArg Env.polls henv) (congrArg Env.drawn henv) haddr h10
  have htrace : (((s.withArmed i).advance i c l p n).bus i).trace = (s.bus i).trace ++ l := by
    rw [State.advance_bus_same, State.withArmed_bus]
  have hsent := hq.sent
  rw [BusCore.transportArm_owner] at hsent
  rw [hexec]
  by_cases hw : w = 0
  · subst hw
    obtain ⟨t, hr, ht⟩ := masterBegin_runs hbuf.pos hb
    obtain ⟨v, hv, hdata, hret⟩ := startCommand_runs blk h hbuf hr ht
    obtain ⟨hmem, hparams, hothers⟩ := startCommand_frame hv
    have htr := hdata.trace.trans (congrArg (· ++ l) (Bus.suspended_trace ..))
    refine ⟨v, _, l, [], hv, hu, iff_of_true rfl hdata.idle, ?_, .inl rfl, fun hne => absurd rfl hne,
      (hdata.role.trans (Bus.suspended_role ..)).trans h.role, hmem, hparams, hothers, htr, hsent,
      .inl ⟨hdata.idle, hdata.phase, hdata.result, hdata.stops, hdata.tx, hdata.rx,
        hdata.cbtrace.trans (Bus.suspended_cbtrace ..), fun e => ⟨hret e, ?_⟩, fun e => ?_⟩⟩
    · rw [List.append_nil]
      exact htr.trans htrace.symm
    · subst e
      exact hdata.wait.trans h.wait
    · subst e
      exact ⟨hdata.blocking, hdata.sem, hdata.wait⟩
  · obtain ⟨t, k, hr, ht, hk⟩ := masterBegin_fails hw ((s.beforeStart_role i blk).trans h.role) hq.ok hb
    obtain ⟨v, hv, hended, hret, hblk⟩ := startCommand_ends blk h hbuf (classify_ne_success hw) hr ht
    obtain ⟨hmem, hparams, hothers⟩ := startCommand_frame hv
    refine ⟨v, _, l ++ k, k, hv, hu, iff_of_false hw (ne_false_of_eq_true hended.idle), ?_, ?_,
      fun _ => hended.result.trans (classify_of_ne_zero hw), hended.role.trans h.role, hmem, hparams, hothers,
      hended.trace, ?_, .inr ⟨hended.idle, hended.phase, hended.wait.trans h.wait, hended.tx, hended.rx, ?_, ?_,
        hended.sources, hblk, hended.cbtrace⟩⟩
    · rw [hended.trace, ← List.append_assoc]
      exact congrArg (· ++ k) htrace.symm
    · exact hk.imp_right fun ⟨hp, he⟩ => ⟨hp, hw, hended.result.trans he⟩
    · intro b a hb
      rcases List.mem_append.mp hb with sent | stop
      · exact hsent b a sent
      · rcases hk with rfl | ⟨rfl, -⟩ <;> simp at stop
    · rw [hret, State.m_eq, hended.result]
    · rw [State.m_eq, hended.result]
      exact classify_failure hw

end Sys2Proof.Machine

/-! # The proofs of the family 42_master.md: starting, serving, ending and reading a master transfer (R220 to R252) -/

namespace Sys2Proof.Machine

/-! ## Commands turned away, and commands let through (R104, R225, R433) -/

/-- R104 (1), (2): in no role, or in the wrong one, an operation other than INIT is ERROR. -/
theorem admitted_wrongRole {k : OpClass} {i : BusId} {s : State} {f : State → Res} (hk : k ≠ .init)
    (h : (s.bus i).role = .none ∨ k.roleOk (s.bus i).role = false) : admitted k i s f = .next (s.setRet .error) := by
  have haway : (s.bus i).turnAway k = .some .error := by
    by_cases hr : (s.bus i).role = .none
    · simp [Bus.turnAway, hr, hk]
    · simp [Bus.turnAway, hr, h.resolve_left hr]
  simp only [admitted, haway, State.reject]

theorem withBuffer_bad {s : State} (h : s.port.arg1 = 0 ∨ s.params.lenMax < s.port.arg1) (f : Word → Word → Res) :
    withBuffer s f = .next (s.setRet .error) := by
  have hbad : s.badLen s.port.arg1 = true := by simpa [State.badLen] using h
  rw [withBuffer, if_pos hbad, State.reject]

/-- Settles O9: each command is admitted, and its length test comes first. -/
theorem badLengthOnlyWritesRet : Obligations.BadLengthOnlyWritesRet := by
  unfold Obligations.BadLengthOnlyWritesRet
  intro i s hlen
  have bad {k : OpClass} (hk : (s.bus i).turnAway k = .none) (f : State → Word → Word → Res) :
      admitted k i s (fun t => withBuffer t (f t)) = .next (s.setRet .error) := by
    rw [admitted_run hk, withBuffer_bad hlen]
  refine ⟨fun h stop => ?master, fun h => ?slave, fun hr => ?lend⟩
  case master =>
    have hk : (s.bus i).turnAway .mStart = .none := h.idleAt.turnAway (by rw [h.role]; rfl)
    have start (d : Dir) : masterStart i d stop s = .next (s.setRet .error) := bad hk _
    have startBlk (d : Dir) : masterStartBlk i d stop s = .next (s.setRet .error) := bad hk _
    exact ⟨start .tx, start .rx, startBlk .tx, startBlk .rx⟩
  case slave =>
    have hk : (s.bus i).turnAway .sStart = .none := h.idleAt.turnAway (by rw [h.role]; rfl)
    have start (d : Dir) : slaveStart i d s = .next (s.setRet .error) := bad hk _
    have startBlk (d : Dir) : slaveStartBlk i d s = .next (s.setRet .error) := bad hk _
    exact ⟨start .tx, start .rx, startBlk .tx, startBlk .rx⟩
  case lend =>
    have hk : (s.bus i).turnAway .sLend = .none := Bus.turnAway_any (by rw [hr]; decide) (by rw [hr]; rfl) rfl rfl
    have lend (d : Dir) : slaveSetBuf i d s = .next (s.setRet .error) := bad hk _
    exact ⟨lend .tx, lend .rx⟩

/-! ## Status (R252, R312, R362) -/

/-- OUT0 with the note of log entry 30, as Safety.lean says it. -/
theorem State.giveOut0_eq (s : State) (i : BusId) (v : Word) : s.giveOut0 i v = (s.outNoted i).setOut0 v := rfl

/-- The count a status command answers, and the state after the call it makes on the DMA collaborator. -/
theorem masterDmaRemaining_settled {i : BusId} {s : State}
    (h : (s.chan (s.m i).dmaChannel).owner ≠ .some i ∨
      ((s.chan (s.m i).dmaChannel).active = false ∧ (s.chan (s.m i).dmaChannel).done = false)) :
    masterDmaRemaining i s = ((s.m i).toXfer.masterRemaining, s) := by
  refine if_neg ?_
  rintro ⟨ho, hlive⟩
  obtain ⟨ha, hd⟩ := h.resolve_left (not_not_intro ho)
  simp [ha, hd] at hlive

theorem masterDmaRemaining_moving {i : BusId} {s : State} (ho : (s.chan (s.m i).dmaChannel).owner = .some i)
    (h : (s.chan (s.m i).dmaChannel).active = true ∨ (s.chan (s.m i).dmaChannel).done = true) :
    masterDmaRemaining i s =
      (if (s.m i).txBuf.isSome then (s.chan (s.m i).dmaChannel).remaining
        else (s.chan (s.m i).dmaChannel).remaining + 2, s.logDma (.getRemaining (s.m i).dmaChannel)) :=
  if_pos ⟨ho, h⟩

/-- What M_GET_STATUS of a master answers from. -/
def masterStatus (i : BusId) (s : State) : Word × State :=
  if (s.m i).idle then (0, s)
  else if (s.m i).transport = .dma then masterDmaRemaining i s
  else ((s.m i).toXfer.masterRemaining, s)

theorem exec_mGetStatus {i : BusId} {s : State} (hr : (s.bus i).role = .master) {v : Word} {t : State}
    (h : masterStatus i s = (v, t)) :
    exec (.mGetStatus i) s = .next (((t.outNoted i).setOut0 v).setRet (s.m i).lastResult) := by
  have hk : (s.bus i).turnAway .mStatus = .none := Bus.turnAway_any (by rw [hr]; decide) (by rw [hr]; rfl) rfl rfl
  have hrun : execMGetStatus i s =
      .next (((masterStatus i s).2.giveOut0 i (masterStatus i s).1).setRet (s.m i).lastResult) := admitted_run hk
  rw [exec, hrun, h, State.giveOut0_eq]

/-- What S_GET_STATUS of a slave answers from. -/
def slaveStatus (i : BusId) (s : State) : Word × State :=
  if (s.s i).transport = .dma ∧ (s.chan (s.s i).dmaChannel).owner = .some i then
    (if (s.s i).statusDir = .tx then (s.chan (s.s i).dmaChannel).remaining else (s.chan (s.s i).dmaChannel).remaining + 1,
      s.logDma (.getRemaining (s.s i).dmaChannel))
  else (if (s.s i).statusDir = .tx then (s.s i).txRemaining else (s.s i).rxRemaining, s)

theorem exec_sGetStatus {i : BusId} {s : State} (hr : (s.bus i).role = .slave) {v : Word} {t : State}
    (h : slaveStatus i s = (v, t)) :
    exec (.sGetStatus i) s = .next (((t.outNoted i).setOut0 v).setRet (s.s i).lastResult) := by
  have hk : (s.bus i).turnAway .sStatus = .none := Bus.turnAway_any (by rw [hr]; decide) (by rw [hr]; rfl) rfl rfl
  have hrun : execSGetStatus i s =
      .next (((slaveStatus i s).2.giveOut0 i (slaveStatus i s).1).setRet (s.s i).lastResult) := by
    simp only [execSGetStatus, admitted_run hk, slaveStatus, dmaRemaining]
    cases (s.s i).statusDir <;> rfl
  rw [exec, hrun, h, State.giveOut0_eq]

/-- Settles O48: the role decides on admission, the transport and the channel's state where the count comes from. -/
theorem getStatusResult : Obligations.GetStatusResult := by
  unfold Obligations.GetStatusResult
  refine ⟨fun i s => ⟨fun hr => ?wrongMaster, fun hr => ?wrongSlave⟩, fun i s hr => ⟨fun hidle => ?idle, fun hbusy =>
    ⟨fun hcount => ?counted, fun hdma ho hlive => ?moving⟩⟩, fun i s hr => ⟨_, rfl, fun hcount => ?slaveCounted,
      fun hdma ho => ?slaveMoving⟩⟩
  case wrongMaster =>
    rw [exec]
    exact admitted_wrongRole (k := .mStatus) (by decide) (.inr (beq_false_of_ne hr))
  case wrongSlave =>
    rw [exec]
    exact admitted_wrongRole (k := .sStatus) (by decide) (.inr (beq_false_of_ne hr))
  case idle => exact exec_mGetStatus hr (if_pos hidle)
  case counted =>
    refine exec_mGetStatus hr ?_
    rw [masterStatus, hbusy, if_neg Bool.false_ne_true]
    split
    · rename_i hdma
      exact masterDmaRemaining_settled (hcount.resolve_left (by simp [hdma]))
    · rfl
  case moving =>
    rw [exec_mGetStatus hr (t := s.logDma (.getRemaining (s.m i).dmaChannel)) ?_]
    · rfl
    · rw [masterStatus, hbusy, if_neg Bool.false_ne_true, if_pos hdma, masterDmaRemaining_moving ho hlive]
  case slaveCounted =>
    refine exec_sGetStatus hr (if_neg ?_)
    rintro ⟨hdma, ho⟩
    exact hcount.elim (by simp [hdma]) fun hne => hne ho
  case slaveMoving => exact exec_sGetStatus hr (t := s.logDma (.getRemaining (s.s i).dmaChannel)) (if_pos ⟨hdma, ho⟩)

end Sys2Proof.Machine

namespace Sys2Proof.Machine

/-! ## Updates of a state whose bus `i` is `b`, carried out -/

section SetBus

variable (s : State) (i : BusId) (b : Bus)

@[simp] theorem State.setBus_core : (s.setBus i b).core i = b.core := by rw [State.core_eq, State.setBus_bus_same]

@[simp] theorem State.setBus_m : (s.setBus i b).m i = b.m := by rw [State.m_eq, State.setBus_bus_same]

theorem State.modBus_setBus (f : Bus → Bus) : (s.setBus i b).modBus i f = s.setBus i (f b) := by
  rw [State.modBus, State.setBus_bus_same, State.setBus_setBus]

theorem State.modCore_setBus (f : BusCore → BusCore) : (s.setBus i b).modCore i f = s.setBus i (b.modCore f) :=
  s.modBus_setBus i b _

theorem State.modMX_setBus (f : Xfer → Xfer) : (s.setBus i b).modMX i f = s.setBus i (b.modM (·.modX f)) :=
  s.modBus_setBus i b (·.modM (·.modX f))

theorem State.setPhase_setBus (p : Phase) : (s.setBus i b).setPhase i p = s.setBus i (b.setPhase p) :=
  s.modBus_setBus i b _

theorem State.notify_setBus (e : Event) : (s.setBus i b).notify i e = s.setBus i (b.notify i e) := s.modBus_setBus i b _

theorem State.logDma_setBus (x : DmaCall) : (s.setBus i b).logDma x = (s.logDma x).setBus i b := rfl

theorem State.channelStopped_setBus (x : Xfer) : (s.setBus i b).channelStopped x = (s.channelStopped x).setBus i b := by
  unfold State.channelStopped
  split <;> rfl

end SetBus

/-! ## The channel stopped (R359) -/

theorem dmaStopIf_eq (x : Xfer) (s : State) : dmaStopIf x s = s.channelStopped x := rfl

/-- Stopping a channel draws nothing. -/
theorem State.drawPoll_channelStopped (s : State) (x : Xfer) :
    (s.channelStopped x).drawPoll = (s.drawPoll.1, s.drawPoll.2.channelStopped x) := by
  unfold State.drawPoll State.channelStopped
  cases x.transport <;> cases hp : s.env.polls <;> simp [hp] <;> rfl

theorem State.drawPoll_dmatrace (s : State) : s.drawPoll.2.dmatrace = s.dmatrace := (SeqOnly.drawPoll 0 s).dmatrace

theorem State.channelStopped_dmatrace (s : State) (x : Xfer) :
    (s.channelStopped x).dmatrace = if x.transport = .dma then s.dmatrace ++ [.stop x.dmaChannel] else s.dmatrace := by
  unfold State.channelStopped
  split <;> rfl

/-! ## The tail every end of a master transfer shares (R242, R246, R250) -/

theorem Bus.postM_eq (b : Bus) : b.postM = { b with sem := if b.m.blocking then b.sem + 1 else b.sem } := by
  unfold Bus.postM
  split <;> rfl

theorem BusCore.transportDisarm_eq (c : BusCore) :
    c.transportDisarm =
      { c with bndie := false, nackie := false, arbie := false, dmatxen := false, dmarxen := false } := by
  simp only [BusCore.transportDisarm, BusCore.setEnable, BusCore.dmareqOff, BusCore.setDmareq]

theorem Xfer.unsetBufs_eq (x : Xfer) :
    x.unsetBufs =
      { x with
        txBuf := .none, txRemaining := 0, txLent := .none, rxBuf := .none, rxRemaining := 0, rxLent := .none } := by
  simp only [Xfer.unsetBufs, Xfer.unsetTx, Xfer.unsetRx]

/-- Result, buffers, idle and post, on a bus whose sources are off. -/
theorem masterClose_disarmed (i : BusId) (r : Result) (s : State) (b : Bus) :
    masterClose i r (s.setBus i (b.modCore .transportDisarm)) = (s.setBus i (b.masterEnded r)).logDma (.idle i) := by
  simp only [masterClose, masterIdle, State.modMX_setBus, State.logDma_setBus, State.setPhase_setBus,
    State.modBus_setBus, Bus.postM_eq, Bus.masterEnded, Bus.modCore, Bus.modM, Bus.setPhase, MCtx.modX, Xfer.unsetBufs_eq,
    BusCore.transportDisarm_eq]

theorem Bus.masterEnded_setPhase (b : Bus) (p : Phase) (r : Result) : (b.setPhase p).masterEnded r = b.masterEnded r := rfl

/-! ## The stop an exit asks for once its sources are off (R196, R246, R250) -/

theorem BusCore.ok_transportDisarm (c : BusCore) : c.transportDisarm.ok = c.ok := by rw [c.transportDisarm_eq]; rfl

theorem BusCore.owner_transportDisarm (c : BusCore) : c.transportDisarm.owner = c.owner := by rw [c.transportDisarm_eq]

section DisarmedStop

variable {i : BusId} {s : State} {b : Bus} (hok : b.core.ok = true) (ho : b.core.owner = true)
include hok ho

theorem seqStop_disarmed_taken {d : BusDraw} (hd : s.drawPoll.1 = .taken d) :
    seqStop i (s.setBus i (b.modCore .transportDisarm)) =
      (0, s.drawPoll.2.setBus i (b.stopped.modCore .transportDisarm)) := by
  rw [seqStop_owner_taken (d := d) (by rw [State.setBus_core]; exact b.core.ok_transportDisarm.trans hok)
    (by rw [State.setBus_core]; exact b.core.owner_transportDisarm.trans ho) (by rw [State.drawPoll_setBus]; exact hd),
    State.drawPoll_setBus, State.setBus_bus_same, State.setBus_setBus]
  simp only [Bus.stopped, Bus.modCore, BusCore.transportDisarm_eq]

theorem seqStop_disarmed_withheld (hd : s.drawPoll.1 = .withheld) :
    seqStop i (s.setBus i (b.modCore .transportDisarm)) =
      (8, s.drawPoll.2.setBus i (b.givenUp.modCore .transportDisarm)) := by
  rw [seqStop_owner_withheld (by rw [State.setBus_core]; exact b.core.ok_transportDisarm.trans hok)
    (by rw [State.setBus_core]; exact b.core.owner_transportDisarm.trans ho) (by rw [State.drawPoll_setBus]; exact hd),
    State.drawPoll_setBus, State.setBus_bus_same, State.setBus_setBus]
  simp only [Bus.givenUp, Bus.modCore, BusCore.transportDisarm_eq]

end DisarmedStop

/-- `t` and `c` are what the stop of an exit, asked for where `q` holds, leaves of `s` and of its bus `b`. -/
inductive ExitStop (q : Prop) (s : State) (b : Bus) : State → Bus → Prop where
  | notAsked (h : ¬(q ∧ b.core.owner = true)) : ExitStop q s b s b
  | taken {d : BusDraw} (hq : q) (ho : b.core.owner = true) (hd : s.drawPoll.1 = .taken d) :
    ExitStop q s b s.drawPoll.2 b.stopped
  | withheld (hq : q) (ho : b.core.owner = true) (hd : s.drawPoll.1 = .withheld) : ExitStop q s b s.drawPoll.2 b.givenUp

/-- The stop comes after the channel has been stopped, with the sources off; both exits end it like this. -/
theorem ExitStop.run {q : Prop} [Decidable q] {s t : State} {b c : Bus} (h : ExitStop q s b t c) (hok : b.core.ok = true)
    (i : BusId) (x : Xfer) (p : Phase) {u : State}
    (hu : u = (s.channelStopped x).setBus i ((b.setPhase p).modCore .transportDisarm)) :
    (if q ∧ (u.core i).owner then (seqStop i u).2 else u) =
      (t.channelStopped x).setBus i ((c.setPhase p).modCore .transportDisarm) := by
  have howner : (u.core i).owner = b.core.owner := by
    rw [hu, State.setBus_core]
    exact b.core.owner_transportDisarm
  rw [howner]
  have hdraw := s.drawPoll_channelStopped x
  cases h with
  | notAsked h => rw [if_neg h, hu]
  | taken hq ho hd =>
    rw [if_pos ⟨hq, ho⟩, hu, seqStop_disarmed_taken (b := b.setPhase p) hok ho ((congrArg Prod.fst hdraw).trans hd), hdraw]
    rfl
  | withheld hq ho hd =>
    rw [if_pos ⟨hq, ho⟩, hu, seqStop_disarmed_withheld (b := b.setPhase p) hok ho ((congrArg Prod.fst hdraw).trans hd), hdraw]
    rfl

theorem ExitStop.dmatrace {q : Prop} {s t : State} {b c : Bus} (h : ExitStop q s b t c) (x : Xfer) :
    (t.channelStopped x).dmatrace = (s.channelStopped x).dmatrace := by
  have same : t.dmatrace = s.dmatrace := by
    cases h with
    | notAsked => rfl
    | taken => exact s.drawPoll_dmatrace
    | withheld => exact s.drawPoll_dmatrace
  rw [State.channelStopped_dmatrace, State.channelStopped_dmatrace, same]

/-! ## M_ABORT (R250) -/

/-- The abort path: sources off, channel stopped, the stop, then the common tail. -/
theorem masterAbort_eq {i : BusId} {s t : State} {b : Bus} (h : ExitStop True s (s.bus i) t b)
    (hok : (s.core i).ok = true) :
    masterAbort i s =
      { (t.channelStopped (s.m i).toXfer).setBus i (b.masterEnded .aborted) with
        dmatrace := (s.channelStopped (s.m i).toXfer).dmatrace ++ [.idle i] } := by
  have hstopped : dmaStopIf (s.m i).toXfer (s.modCore i .transportDisarm) =
      (s.channelStopped (s.m i).toXfer).setBus i (((s.bus i).setPhase (s.bus i).phase).modCore .transportDisarm) := by
    rw [dmaStopIf_eq]
    exact State.channelStopped_setBus ..
  have hstop := h.run hok i (s.m i).toXfer (s.bus i).phase hstopped
  simp only [true_and] at hstop
  rw [masterAbort, hstop, masterClose_disarmed, Bus.masterEnded_setPhase, State.logDma, State.setBus_dmatrace, h.dmatrace]

theorem exec_mAbort {i : BusId} {s : State} (hr : (s.bus i).role = .master) :
    exec (.mAbort i) s = .next ((if (s.m i).idle then s else masterAbort i s).setRet .success) := by
  rw [exec]
  exact admitted_run (Bus.turnAway_any (by rw [hr]; decide) (by rw [hr]; rfl) rfl rfl)

/-- Settles O47: the abort path by who owns the bus and by what the stop draws. -/
theorem masterAbortResult : Obligations.MasterAbortResult := by
  unfold Obligations.MasterAbortResult
  intro i s
  refine ⟨fun hr => ?wrong, fun hr hok => ⟨fun hidle => by rw [exec_mAbort hr, hidle, if_pos rfl], fun hidle => ?busy⟩⟩
  case wrong =>
    rw [exec]
    exact admitted_wrongRole (k := .mAbort) (by decide) (.inr (beq_false_of_ne hr))
  case busy =>
    rw [exec_mAbort hr, hidle, if_neg Bool.false_ne_true]
    refine ⟨fun ho => ?foreign, fun ho => ⟨fun d hd => ?taken, fun hd => ?withheld⟩⟩
    case foreign => rw [masterAbort_eq (.notAsked fun h => Bool.false_ne_true (ho.symm.trans h.2)) hok]
    case taken => rw [masterAbort_eq (.taken trivial ho hd) hok]
    case withheld => rw [masterAbort_eq (.withheld trivial ho hd) hok]

/-! ## The normal end (R242) -/

/-- `BUSY` becomes `r`; a result already recorded stays (R35, R242). -/
def Result.orElse (l r : Result) : Result := if l = .busy then r else l

theorem Xfer.settleResult_eq (x : Xfer) : x.settleResult = { x with lastResult := x.lastResult.orElse .success } := by
  unfold Xfer.settleResult Result.orElse
  split <;> rfl

/-- A stop that failed counts where the result is still open. -/
theorem Xfer.stopFailed_eq (x : Xfer) (st : Word) :
    x.stopFailed st = { x with lastResult := if st = 0 then x.lastResult else x.lastResult.orElse .error } := by
  unfold Xfer.stopFailed Result.orElse
  by_cases h : st = 0
  · rw [if_neg fun hx => hx.1 h, if_pos h]
  · by_cases hb : x.lastResult = .busy
    · rw [if_pos ⟨h, hb⟩, if_neg h, if_pos hb]
    · rw [if_neg fun hx => hb hx.2, if_neg h, if_neg hb]

theorem Bus.notify_master {b : Bus} (hr : b.role = .master) (i : BusId) (e : Event) :
    b.notify i e = b.called i b.m.cb e := by
  rw [Bus.notify, b.ctx_master hr]
  rfl

/-- The callback of a master comes after the context is idle again (R242, R246). -/
theorem notify_logged {b : Bus} (hr : b.role = .master) (i : BusId) (t : State) (x : DmaCall) (e : Event) :
    ((t.setBus i b).logDma x).notify i e =
      { t.setBus i (b.called i b.m.cb e) with dmatrace := t.dmatrace ++ [x] } := by
  rw [State.logDma_setBus, State.notify_setBus, Bus.notify_master hr]
  rfl

/-- The end, from what its optional stop leaves. -/
theorem masterEnd_of_stop {i : BusId} {s t : State} {b : Bus}
    (h : masterEndStop i (s.modCore i .transportDisarm) = t.setBus i (b.modCore .transportDisarm))
    (hrole : b.role = .master) {r : Result} (hr : b.m.lastResult.orElse .success = r) :
    masterEnd i s =
      { t.setBus i ((b.masterEnded r).called i b.m.cb (if r = .success then .endOfTransfer else .error)) with
        dmatrace := t.dmatrace ++ [.idle i] } := by
  subst hr
  have hsettle : (masterEndStop i (s.modCore i .transportDisarm)).modMX i (fun x => x.unsetBufs.settleResult) =
      (masterEndStop i (s.modCore i .transportDisarm)).modMX i fun x =>
        { x.unsetBufs with lastResult := b.m.lastResult.orElse .success } := by
    rw [h, State.modMX_setBus, State.modMX_setBus]
    simp only [Bus.modM, MCtx.modX, Bus.modCore, Xfer.settleResult_eq, Xfer.unsetBufs_eq]
  rw [masterEnd, hsettle, ← masterClose, h, masterClose_disarmed, State.logDma_setBus, State.setBus_m,
    ← State.logDma_setBus]
  exact notify_logged (b := b.masterEnded _) hrole i t _ _

/-- The result once the stop has answered `st`: one that was open is decided by it. -/
def Result.closed (l : Result) (st : Word) : Result := l.orElse (if st = 0 then .success else .error)

theorem Xfer.stopFailed_closed (x : Xfer) (st : Word) :
    (x.stopFailed st).lastResult.orElse .success = x.lastResult.closed st := by
  rw [Xfer.stopFailed_eq]
  unfold Result.closed Result.orElse
  by_cases hb : x.lastResult = .busy
  · by_cases h : st = 0
    · simp only [if_pos h, if_pos hb]
    · simp only [if_neg h, if_pos hb, reduceCtorEq, if_false]
  · simp only [if_neg hb, ite_self]

/-- What a failed stop records is overwritten by the end. -/
theorem Bus.masterEnded_stopFailed (b : Bus) (st : Word) (p : Phase) (r : Result) :
    ((b.setPhase p).modM (·.modX (·.stopFailed st))).masterEnded r = b.masterEnded r := by
  simp only [Bus.masterEnded, Bus.modM, MCtx.modX, Bus.setPhase, Xfer.stopFailed_eq]

/-- R242 with the stop asked for: `st` is its status, `b` the bus it leaves. -/
theorem masterEnd_stopped {i : BusId} {s t : State} {b : Bus} {st : Word} (hs : (s.m i).stopOnCompletion = true)
    (h : seqStop i (s.setBus i (((s.bus i).setPhase .stop).modCore .transportDisarm)) =
      (st, t.setBus i ((b.setPhase .stop).modCore .transportDisarm)))
    (hrole : b.role = .master) (hm : b.m = s.m i) (htrace : t.dmatrace = s.dmatrace) {r : Result}
    (hr : (s.m i).lastResult.closed st = r) :
    masterEnd i s =
      { t.setBus i ((b.masterEnded r).called i (s.m i).cb (if r = .success then .endOfTransfer else .error)) with
        dmatrace := s.dmatrace ++ [.idle i] } := by
  have hstop : masterEndStop i (s.modCore i .transportDisarm) =
      t.setBus i (((b.setPhase .stop).modM (·.modX (·.stopFailed st))).modCore .transportDisarm) := by
    have hon : ((s.modCore i .transportDisarm).m i).stopOnCompletion = true := by
      rw [State.m_eq, State.modCore_bus_same]
      exact hs
    have hphase : (s.modCore i .transportDisarm).setPhase i .stop =
        s.setBus i (((s.bus i).setPhase .stop).modCore .transportDisarm) := State.setPhase_setBus ..
    rw [masterEndStop, if_pos hon, hphase, h, State.modMX_setBus]
    rfl
  have hcb : ((b.setPhase .stop).modM (·.modX (·.stopFailed st))).m.cb = (s.m i).cb := by
    simp only [Bus.modM_m, Bus.setPhase_m, MCtx.modX_toXfer, Xfer.stopFailed_eq, hm]
  have hend := masterEnd_of_stop hstop hrole (r := r)
    ((b.m.toXfer.stopFailed_closed st).trans ((congrArg (fun m : MCtx => m.lastResult.closed st) hm).trans hr))
  rw [hend, hcb, Bus.masterEnded_stopFailed, htrace]

theorem masterEnd_noStop {i : BusId} {s : State} (hs : (s.m i).stopOnCompletion = false)
    (hrole : (s.bus i).role = .master) {r : Result} (hr : (s.m i).lastResult.closed 0 = r) :
    masterEnd i s =
      { s.setBus i (((s.bus i).masterEnded r).called i (s.m i).cb (if r = .success then .endOfTransfer else .error)) with
        dmatrace := s.dmatrace ++ [.idle i] } := by
  refine masterEnd_of_stop (t := s) (b := s.bus i) (if_neg ?_) hrole hr
  rw [State.m_eq, State.modCore_bus_same]
  exact ne_true_of_eq_false hs

section NotOwner

variable {i : BusId} {s : State} {b : Bus} (ho : b.core.owner = false)
include ho

/-- Without ownership a stop requests nothing and polls for a free bus (R196). -/
theorem seqStop_disarmed_notOwner {r : Bool × State}
    (hr : poll i (fun c => !c.busy) (s.setBus i (b.modCore .transportDisarm)) = r) :
    seqStop i (s.setBus i (b.modCore .transportDisarm)) = (if r.1 then 0 else 8, r.2) := by
  refine seqStop_foreign ?_ ?_
  · rw [State.setBus_core]
    exact b.core.owner_transportDisarm.trans ho
  · rw [State.setBus_self]
    exact hr

theorem seqStop_disarmed_free (hb : b.core.busy = false) :
    seqStop i (s.setBus i (b.modCore .transportDisarm)) = (0, s.setBus i (b.modCore .transportDisarm)) :=
  seqStop_disarmed_notOwner ho (poll_holds (by rw [Bus.modCore_core, BusCore.transportDisarm_eq, hb]; rfl))

theorem seqStop_disarmed_foreign (hb : b.core.busy = true) (hp : b.core.pend = .none) :
    seqStop i (s.setBus i (b.modCore .transportDisarm)) = (8, s.setBus i (b.modCore .transportDisarm)) :=
  seqStop_disarmed_notOwner ho (poll_nothing (by rw [Bus.modCore_core, BusCore.transportDisarm_eq, hb]; rfl)
    (by rw [Bus.modCore_core, BusCore.transportDisarm_eq, hp]))

end NotOwner

/-- Settles O45: the end by the stop asked for and by what the stop answers. -/
theorem masterEndResult : Obligations.MasterEndResult := by
  unfold Obligations.MasterEndResult
  intro i s hr hok
  refine ⟨_, _, rfl, rfl, fun h => ?granted, fun hs ho => ⟨fun d hd => ?taken, fun hd => ?withheld⟩, fun hs ho hb hp => ?foreign⟩
  case granted =>
    cases hs : (s.m i).stopOnCompletion with
    | false => exact masterEnd_noStop hs hr rfl
    | true =>
      obtain ⟨ho, hb⟩ := h.resolve_left (by simp [hs])
      exact masterEnd_stopped hs (seqStop_disarmed_free (b := (s.bus i).setPhase .stop) ho hb) hr rfl rfl rfl
  case taken =>
    have hstop := seqStop_disarmed_taken (i := i) (b := (s.bus i).setPhase .stop) hok ho hd
    exact masterEnd_stopped (b := (s.bus i).stopped) hs hstop hr rfl s.drawPoll_dmatrace rfl
  case withheld =>
    have hstop := seqStop_disarmed_withheld (i := i) (b := (s.bus i).setPhase .stop) hok ho hd
    exact masterEnd_stopped (b := (s.bus i).givenUp) hs hstop hr rfl s.drawPoll_dmatrace rfl
  case foreign =>
    exact masterEnd_stopped hs (seqStop_disarmed_foreign (b := (s.bus i).setPhase .stop) ho hb hp) hr rfl rfl rfl

end Sys2Proof.Machine

namespace Sys2Proof.Machine

/-! ## The error exit (R246) -/

/-- The error exit: sources off, channel stopped, a stop after ERROR alone, then the common tail and the callback. -/
theorem masterErrorExit_eq {i : BusId} {code : Result} {s t : State} {b : Bus}
    (h : ExitStop (code = .error) s (s.bus i) t b) (hok : (s.core i).ok = true) (hrole : b.role = .master) :
    masterErrorExit i code s =
      { (t.channelStopped (s.m i).toXfer).setBus i ((b.masterEnded code).called i b.m.cb .error) with
        dmatrace := (s.channelStopped (s.m i).toXfer).dmatrace ++ [.idle i] } := by
  have hstopped : dmaStopIf (s.m i).toXfer ((s.setPhase i .error).modCore i .transportDisarm) =
      (s.channelStopped (s.m i).toXfer).setBus i (((s.bus i).setPhase .error).modCore .transportDisarm) := by
    have hbus : (s.setPhase i .error).modCore i .transportDisarm =
        s.setBus i (((s.bus i).setPhase .error).modCore .transportDisarm) := State.modCore_setBus ..
    rw [dmaStopIf_eq, hbus, State.channelStopped_setBus]
  rw [masterErrorExit, h.run hok i (s.m i).toXfer .error hstopped, masterClose_disarmed, Bus.masterEnded_setPhase,
    notify_logged (b := b.masterEnded code) hrole, h.dmatrace]
  rfl

/-! ## Dispatch with no channel event (R446) -/

section NoDmaEvent

variable {i : BusId} {s : State} (h : noDmaEvent i s)
include h

theorem noDmaEvent.err : dmaErrPending i s = false := by
  unfold dmaErrPending boundChan
  split
  · rename_i hc
    split at hc
    · rename_i ho
      cases hc
      exact (h ho).2
    · cases hc
  · rfl

theorem noDmaEvent.done : dmaDonePending i s = false := by
  unfold dmaDonePending boundChan
  split
  · rename_i hc
    split at hc
    · rename_i ho
      cases hc
      exact (h ho).1
    · cases hc
  · rfl

theorem noDmaEvent.dispatch_master (hr : (s.bus i).role = .master) :
    runInput (.dispatch i) s = .next (if (s.core i).irq then masterHandler i s else s) := by
  simp only [runInput, dispatch, dispatchEnabled, masterDispatch, hr, h.err, h.done]
  cases (s.core i).irq <;> rfl

theorem noDmaEvent.dispatch_slave (hr : (s.bus i).role = .slave) :
    runInput (.dispatch i) s = if (s.core i).irq then slaveHandler i s else .next s := by
  simp only [runInput, dispatch, dispatchEnabled, slaveDispatch, hr, h.err, h.done]
  cases (s.core i).irq <;> rfl

/-- The core is no part of this. -/
theorem noDmaEvent.setCore (k : BusCore) : noDmaEvent i (s.setBus i { s.bus i with core := k }) := by
  have hctx : (s.setBus i { s.bus i with core := k }).ctx i = s.ctx i := by
    rw [State.ctx_eq, State.setBus_bus_same]
    rfl
  unfold noDmaEvent
  rw [hctx]
  exact h

end NoDmaEvent

/-! ## Flags that are no business of the role (R233, R449) -/

theorem State.modCore_eq (s : State) (i : BusId) (f : BusCore → BusCore) :
    s.modCore i f = s.setBus i { s.bus i with core := f (s.core i) } := rfl

theorem State.modCore_modCore (s : State) (i : BusId) (f g : BusCore → BusCore) :
    (s.modCore i f).modCore i g = s.modCore i fun c => g (f c) :=
  State.modCore_setBus s i ((s.bus i).modCore f) g

theorem State.modCore_of_fixed {s : State} {i : BusId} {f : BusCore → BusCore} (h : f (s.core i) = s.core i) :
    s.modCore i f = s := by
  rw [State.modCore_eq, h]
  exact s.setBus_self i

theorem BusCore.irq_eq_false (c : BusCore) :
    c.irq = false ↔
      (c.bnd && c.bndie) = false ∧ (c.rxnack && c.nackie) = false ∧ (c.arblost && c.arbie) = false ∧
        (c.addrmatch && c.addrie) = false ∧ (c.stopf && c.stopie) = false := by
  simp only [BusCore.irq, Bool.or_eq_false_iff, and_assoc]

/-- A flag cleared where it is enabled is as it was, where no enabled one is pending. -/
theorem flag_kept {f e : Bool} (h : (f && e) = false) : (f && !e) = f := by
  revert h
  cases f <;> cases e <;> decide

theorem BusCore.dropSlaveFlags_of_quiet {c : BusCore} (h : c.irq = false) : c.dropSlaveFlags = c := by
  obtain ⟨-, -, -, ha, hs⟩ := c.irq_eq_false.mp h
  rw [BusCore.dropSlaveFlags, flag_kept ha, flag_kept hs]

theorem BusCore.dropSlaveFlags_of_none {c : BusCore} (hm : c.addrmatch = false) (hs : c.stopf = false) :
    c.dropSlaveFlags = c := by
  rw [BusCore.dropSlaveFlags, flag_kept (by rw [hm]; rfl), flag_kept (by rw [hs]; rfl)]

theorem BusCore.dropMasterFlags_of_quiet {c : BusCore} (h : c.irq = false) : c.dropMasterFlags = c := by
  obtain ⟨-, -, hl, -⟩ := c.irq_eq_false.mp h
  rw [BusCore.dropMasterFlags, flag_kept hl]

theorem BusCore.dropSlaveFlags_idem (c : BusCore) : c.dropSlaveFlags.dropSlaveFlags = c.dropSlaveFlags := by
  simp [BusCore.dropSlaveFlags]

theorem BusCore.dropMasterFlags_idem (c : BusCore) : c.dropMasterFlags.dropMasterFlags = c.dropMasterFlags := by
  simp [BusCore.dropMasterFlags]

/-- Serving the flags of the other role first and the rest afterwards is serving all at once. -/
theorem masterHandler_dropped (i : BusId) (s : State) :
    masterHandler i (s.modCore i .dropSlaveFlags) = masterHandler i s := by
  have hfix := State.modCore_of_fixed (s := s.modCore i .dropSlaveFlags) (i := i) (f := .dropSlaveFlags) (by
    rw [State.core_eq, State.modCore_bus_same]
    exact BusCore.dropSlaveFlags_idem _)
  unfold masterHandler
  rw [hfix]

theorem slaveHandler_dropped (i : BusId) (s : State) :
    slaveHandler i (s.modCore i .dropMasterFlags) = slaveHandler i s := by
  have hfix := State.modCore_of_fixed (s := s.modCore i .dropMasterFlags) (i := i) (f := .dropMasterFlags) (by
    rw [State.core_eq, State.modCore_bus_same]
    exact BusCore.dropMasterFlags_idem _)
  unfold slaveHandler
  rw [hfix]

/-! ## The master handler, case by case (R233) -/

/-- The flags tested are those before the slave's flags are cleared. -/
theorem masterHandler_eq (i : BusId) (s : State) :
    masterHandler i s =
      if (s.m i).idle then
        (s.modCore i .dropSlaveFlags).modCore i fun c => ((c.clearFlag .bnd).clearFlag .rxnack).clearFlag .arblost
      else if (s.core i).arblost then masterArbLost i (s.modCore i .dropSlaveFlags)
      else if (s.core i).rxnack then masterNack i (s.modCore i .dropSlaveFlags)
      else if (s.core i).bnd && (s.core i).bndie then masterByte i (s.modCore i .dropSlaveFlags)
      else s.modCore i .dropSlaveFlags := by
  simp only [masterHandler, State.core_eq, State.m_eq, State.modCore_bus_same]
  rfl

theorem masterHandler_idle {i : BusId} {s : State} (hidle : (s.m i).idle = true) :
    masterHandler i s =
      s.setBus i
        { s.bus i with
          core :=
            { s.core i with
              bnd := false, rxnack := false, arblost := false
              addrmatch := (s.core i).addrmatch && !(s.core i).addrie
              stopf := (s.core i).stopf && !(s.core i).stopie } } := by
  rw [masterHandler_eq, if_pos hidle, State.modCore_modCore, State.modCore_eq]
  simp only [BusCore.dropSlaveFlags, BusCore.clearFlag]

section Handler

variable {i : BusId} {s : State}

/-- With no other enabled flag pending only the slave's flags are served. -/
theorem masterHandler_quiet (hidle : (s.m i).idle = false) (hlost : (s.core i).arblost = true → (s.core i).arbie = true)
    (hnack : (s.core i).rxnack = true → (s.core i).nackie = true) (h : (s.core i).dropSlaveFlags.irq = false) :
    masterHandler i s = s.modCore i .dropSlaveFlags := by
  obtain ⟨hb, hn, ha, -⟩ := (BusCore.irq_eq_false _).mp h
  have nobyte : ((s.core i).bnd && (s.core i).bndie) = false := hb
  have acked : (s.core i).rxnack = false := by
    refine Bool.eq_false_iff.mpr fun hx => Bool.false_ne_true (hn.symm.trans ?_)
    exact Bool.and_eq_true_iff.mpr ⟨hx, hnack hx⟩
  have won : (s.core i).arblost = false := by
    refine Bool.eq_false_iff.mpr fun hx => Bool.false_ne_true (ha.symm.trans ?_)
    exact Bool.and_eq_true_iff.mpr ⟨hx, hlost hx⟩
  simp only [masterHandler_eq, hidle, won, acked, nobyte, Bool.false_eq_true, if_false]

theorem slaveHandler_quiet (hnack : (s.core i).rxnack = true → (s.core i).nackie = true)
    (h : (s.core i).dropMasterFlags.irq = false) : slaveHandler i s = .next (s.modCore i .dropMasterFlags) := by
  obtain ⟨hb, hn, -, hm, hs⟩ := (BusCore.irq_eq_false _).mp h
  have acked : (s.core i).rxnack = false := by
    refine Bool.eq_false_iff.mpr fun hx => Bool.false_ne_true (hn.symm.trans ?_)
    exact Bool.and_eq_true_iff.mpr ⟨hx, hnack hx⟩
  have nobyte : (s.core i).dropMasterFlags.byteEvent = false := by
    rw [BusCore.byteEvent, hb]
    simp [BusCore.dropMasterFlags, acked]
  have hcore : (s.modCore i .dropMasterFlags).core i = (s.core i).dropMasterFlags := by
    rw [State.core_eq, State.modCore_bus_same]
    rfl
  simp only [slaveHandler, slaveByteEvent, slaveStopEvent, slaveMatchEvent, hcore, nobyte, hs, hm, Res.bind_next,
    Bool.false_and, Bool.false_eq_true, if_false]

end Handler

/-- A handler that begins by clearing flags with `f`, which does nothing where no interrupt is pending, serves the rest as
without them. -/
theorem served_cleared {α : Type} {i : BusId} {s : State} {f : BusCore → BusCore} {run : State → α} {handler : State → α}
    (hfix : (s.core i).irq = false → f (s.core i) = s.core i) (hsame : handler (s.modCore i f) = handler s)
    (hquiet : (f (s.core i)).irq = false → handler s = run (s.modCore i f)) :
    (if (s.core i).irq then handler s else run s) =
      if ((s.modCore i f).core i).irq then handler (s.modCore i f) else run (s.modCore i f) := by
  have hcore : (s.modCore i f).core i = f (s.core i) := by
    rw [State.core_eq, State.modCore_bus_same]
    rfl
  rw [hcore, hsame]
  cases hirq : (s.core i).irq with
  | false => rw [hfix hirq, hirq, State.modCore_of_fixed (hfix hirq)]
  | true =>
    cases hirq' : (f (s.core i)).irq with
    | false => exact hquiet hirq'
    | true => rfl

/-! ## The error exits of the handler and of the channel (R239, R240, R361) -/

/-- No stop is asked for after a refused byte or a lost arbitration. -/
theorem masterErrorExit_noStop {i : BusId} {code : Result} (hcode : code ≠ .error) (s : State) {b : Bus}
    (hok : b.core.ok = true) (hrole : b.role = .master) :
    masterErrorExit i code (s.setBus i b) =
      { (s.channelStopped b.m.toXfer).setBus i ((b.masterEnded code).called i b.m.cb .error) with
        dmatrace := (s.channelStopped b.m.toXfer).dmatrace ++ [.idle i] } := by
  have hstop : ExitStop (code = .error) (s.setBus i b) ((s.setBus i b).bus i) (s.setBus i b) ((s.setBus i b).bus i) :=
    .notAsked fun h => hcode h.1
  rw [masterErrorExit_eq hstop (by rw [State.setBus_core]; exact hok) (by rw [State.setBus_bus_same]; exact hrole),
    State.channelStopped_setBus, State.setBus_setBus, State.setBus_m, State.setBus_bus_same,
    State.setBus_dmatrace]

/-- The handler of an owner of a transfer with no flag of the other role pending. -/
theorem masterHandler_busy {i : BusId} {s : State} (hidle : (s.m i).idle = false) (hm : (s.core i).addrmatch = false)
    (hs : (s.core i).stopf = false) :
    masterHandler i s =
      if (s.core i).arblost then masterArbLost i s
      else if (s.core i).rxnack then masterNack i s
      else if (s.core i).bnd && (s.core i).bndie then masterByte i s
      else s := by
  have hfix : s.modCore i .dropSlaveFlags = s := State.modCore_of_fixed (BusCore.dropSlaveFlags_of_none hm hs)
  rw [masterHandler_eq, hfix, hidle, if_neg Bool.false_ne_true]

theorem BusCore.irq_of_pending {c : BusCore}
    (h : (c.bnd = true ∧ c.bndie = true) ∨ (c.rxnack = true ∧ c.nackie = true) ∨ (c.arblost = true ∧ c.arbie = true)) :
    c.irq = true := by
  rcases h with ⟨h1, h2⟩ | ⟨h1, h2⟩ | ⟨h1, h2⟩ <;> simp [BusCore.irq, h1, h2]

/-- The pending error of a channel is taken before anything else (R446). -/
theorem dispatch_dmaError {i : BusId} {s : State} (hr : (s.bus i).role = .master)
    (ho : (s.chan (s.m i).dmaChannel).owner = .some i) (he : (s.chan (s.m i).dmaChannel).err = true) :
    runInput (.dispatch i) s = .next (masterDmaError i (s.m i).dmaChannel s) := by
  have hctx : (s.ctx i).dmaChannel = (s.m i).dmaChannel := congrArg Xfer.dmaChannel ((s.bus i).ctx_master hr)
  have hpend : dmaErrPending i s = true := by simp [dmaErrPending, boundChan, hctx, ho, he]
  simp [runInput, dispatch, dispatchEnabled, masterDispatch, hr, hpend]

/-- Taking an event off a channel draws nothing. -/
theorem State.drawPoll_modChan (s : State) (c : Chan) (f : DmaChan → DmaChan) :
    (s.modChan c f).drawPoll = (s.drawPoll.1, s.drawPoll.2.modChan c f) := by
  unfold State.drawPoll
  rw [State.modChan_env]
  split <;> rfl

/-- Stopping the channel takes its error event too (R359). -/
theorem State.channelStopped_errTaken (s : State) {x : Xfer} (hx : x.transport = .dma) :
    (s.modChan x.dmaChannel fun d => { d with err := false }).channelStopped x = s.channelStopped x := by
  simp only [State.channelStopped, if_pos hx, State.modChan_chan_same]
  rw [State.modChan, State.setChan_setChan]
  rfl

theorem masterDmaError_busy {i : BusId} {s t : State} {b : Bus} (h : ExitStop True s (s.bus i) t b)
    (hidle : (s.m i).idle = false) (hok : (s.core i).ok = true) (hrole : b.role = .master)
    (hdma : (s.m i).transport = .dma) :
    masterDmaError i (s.m i).dmaChannel s =
      { (t.channelStopped (s.m i).toXfer).setBus i ((b.masterEnded .error).called i b.m.cb .error) with
        dmatrace := s.dmatrace ++ [.stop (s.m i).dmaChannel, .idle i] } := by
  have htaken : ExitStop (Result.error = .error) (s.modChan (s.m i).dmaChannel fun d => { d with err := false }) (s.bus i)
      (t.modChan (s.m i).dmaChannel fun d => { d with err := false }) b := by
    have hdraw := s.drawPoll_modChan (s.m i).dmaChannel fun d => { d with err := false }
    have hnext := congrArg Prod.snd hdraw
    dsimp only at hnext
    cases h with
    | notAsked h => exact .notAsked fun hx => h ⟨trivial, hx.2⟩
    | taken _ ho hd =>
      rw [← hnext]
      exact .taken rfl ho ((congrArg Prod.fst hdraw).trans hd)
    | withheld _ ho hd =>
      rw [← hnext]
      exact .withheld rfl ho ((congrArg Prod.fst hdraw).trans hd)
  have hrun : masterDmaError i (s.m i).dmaChannel s =
      masterErrorExit i .error (s.modChan (s.m i).dmaChannel fun d => { d with err := false }) :=
    if_neg (ne_true_of_eq_false hidle)
  have hm : (s.modChan (s.m i).dmaChannel fun d => { d with err := false }).m i = s.m i := rfl
  rw [hrun, masterErrorExit_eq htaken hok hrole, hm, State.channelStopped_errTaken _ hdma,
    State.channelStopped_errTaken _ hdma, State.channelStopped_dmatrace, if_pos hdma, List.append_assoc]
  rfl

/-- Settles O46: the late and foreign flags by what the handlers clear first, the error exits by the flag or event that
leads to them. -/
theorem masterErrorAndLateEvents : Obligations.MasterErrorAndLateEvents := by
  unfold Obligations.MasterErrorAndLateEvents
  refine ⟨fun i s hdma => ⟨fun hr hidle hirq => ?late, fun hr hidle hlost hnack => ?foreign, fun hr hnack => ?slave⟩,
    fun i s hr hidle hok hm hs => ⟨fun hdma hlost hie => ?lost, fun hdma hwon hnack hie => ?nack,
      fun hdma ho he => ⟨fun hown => ?noStop, fun hown => ⟨fun d hd => ?taken, fun hd => ?withheld⟩⟩⟩⟩
  case late => rw [hdma.dispatch_master hr, hirq, if_pos rfl, masterHandler_idle hidle]
  case foreign =>
    have hr' : ((s.modCore i .dropSlaveFlags).bus i).role = .master := by rw [State.modCore_bus_same]; exact hr
    have hserved := served_cleared (run := id) (handler := masterHandler i) BusCore.dropSlaveFlags_of_quiet
      (masterHandler_dropped i s) (masterHandler_quiet hidle hlost hnack)
    exact (hdma.dispatch_master hr).trans
      ((congrArg _ hserved).trans ((hdma.setCore (s.core i).dropSlaveFlags).dispatch_master hr').symm)
  case slave =>
    have hr' : ((s.modCore i .dropMasterFlags).bus i).role = .slave := by rw [State.modCore_bus_same]; exact hr
    have hserved := served_cleared (run := .next) (handler := slaveHandler i) BusCore.dropMasterFlags_of_quiet
      (slaveHandler_dropped i s) (slaveHandler_quiet hnack)
    exact (hdma.dispatch_slave hr).trans
      (hserved.trans ((hdma.setCore (s.core i).dropMasterFlags).dispatch_slave hr').symm)
  case lost =>
    rw [hdma.dispatch_master hr, BusCore.irq_of_pending (.inr (.inr ⟨hlost, hie⟩)), if_pos rfl,
      masterHandler_busy hidle hm hs, if_pos hlost]
    exact congrArg Host.Outcome.next (masterErrorExit_noStop (by decide) s
      (b := { s.bus i with core := { s.core i with arblost := false } }) hok hr)
  case nack =>
    rw [hdma.dispatch_master hr, BusCore.irq_of_pending (.inr (.inl ⟨hnack, hie⟩)), if_pos rfl,
      masterHandler_busy hidle hm hs, hwon, if_neg Bool.false_ne_true, if_pos hnack]
    exact congrArg Host.Outcome.next (masterErrorExit_noStop (by decide) s
      (b := { s.bus i with core := { s.core i with rxnack := false, bnd := false } }) hok hr)
  case noStop =>
    rw [dispatch_dmaError hr ho he,
      masterDmaError_busy (.notAsked fun h => Bool.false_ne_true (hown.symm.trans h.2)) hidle hok hr hdma]
    rfl
  case taken =>
    rw [dispatch_dmaError hr ho he, masterDmaError_busy (.taken trivial hown hd) hidle hok hr hdma]
    rfl
  case withheld =>
    rw [dispatch_dmaError hr ho he, masterDmaError_busy (.withheld trivial hown hd) hidle hok hr hdma]
    rfl

end Sys2Proof.Machine

namespace Sys2Proof.Machine

/-! ## A completed byte (R234, R236) -/

theorem MasterByteEvent.dispatch {i : BusId} {s : State} (h : MasterByteEvent i s) :
    runInput (.dispatch i) s = .next (masterByte i s) := by
  obtain ⟨hr, hidle, hbnd, hie, hwon, hacked, ⟨hm, hs⟩, hdma⟩ := h
  rw [hdma.dispatch_master hr, BusCore.irq_of_pending (.inl ⟨hbnd, hie⟩), if_pos rfl, masterHandler_busy hidle hm hs,
    hwon, hacked, hbnd, hie]
  rfl

theorem State.modMX_modCore (s : State) (i : BusId) (f : Xfer → Xfer) (g : BusCore → BusCore) :
    (s.modMX i f).modCore i g = s.setBus i { s.bus i with core := g (s.core i), m := (s.m i).modX f } :=
  State.modCore_setBus s i ((s.bus i).modM (·.modX f)) g

/-- Settles O43: a byte event of a send, by whether bytes are left. -/
theorem masterSendByteEvent : Obligations.MasterSendByteEvent := by
  unfold Obligations.MasterSendByteEvent
  intro i a s h hbuf
  have hstep : runInput (.dispatch i) s = .next (masterSendStep i s) := by
    rw [h.dispatch, masterByte, hbuf]
    rfl
  refine ⟨fun hleft => ?more, fun hnone => ?last⟩
  case more =>
    rw [hstep, masterSendStep, if_pos hleft, State.modMX_modCore, BusCore.writeData_eq, hbuf]
    simp only [MCtx.modX, Xfer.advanceTx, hbuf]
    rfl
  case last =>
    rw [hstep, masterSendStep, if_neg (not_not_intro hnone)]
    rfl

/-- The index comparison of R236 by the count that is left. -/
theorem Xfer.rxTotal_eq_iff (x : Xfer) (n : Word) : x.rxCursor + n = x.rxTotal ↔ x.rxRemaining = n := by
  unfold Xfer.rxTotal
  bv_omega

/-- The byte that arrived is stored before or after the core is served alike. -/
theorem masterStore_modCore (i : BusId) (v : Byte) (s : State) (f : BusCore → BusCore) :
    masterStore i v (s.modCore i f) =
      (s.store (bufAddr (s.m i).rxBuf + (s.m i).rxCursor) v).setBus i
        { s.bus i with core := f (s.core i), m := (s.m i).modX (·.advanceRx 1) } := by
  have hm : (s.modCore i f).m i = s.m i := by
    rw [State.m_eq, State.modCore_bus_same]
    rfl
  rw [masterStore, hm]
  exact State.modMX_setBus (s.store _ v) i ((s.bus i).modCore f) (·.advanceRx 1)

/-- Settles O44: the index comparison by the count left, then the byte stored. -/
theorem masterReceiveByteEvent : Obligations.MasterReceiveByteEvent := by
  unfold Obligations.MasterReceiveByteEvent
  intro i a s h htx hbuf
  have hstep : runInput (.dispatch i) s = .next (masterRecvStep i s) := by
    rw [h.dispatch, masterByte, htx]
    rfl
  have hstore (f : BusCore → BusCore) := masterStore_modCore i (s.core i).data s f
  rw [hbuf] at hstore
  refine ⟨_, rfl, fun hlast => ?last, fun hmore => ?more, fun b hb => s.load_store_ne _ hb⟩
  case last =>
    rw [hstep, masterRecvStep, if_pos ((Xfer.rxTotal_eq_iff _ _).mpr hlast), hstore]
    rfl
  case more =>
    rw [hstep, masterRecvStep, if_neg fun he => hmore ((Xfer.rxTotal_eq_iff _ _).mp he), hstore, BusCore.readData_eq]
    simp only [Xfer.rxTotal_eq_iff]
    rfl

end Sys2Proof.Machine

namespace Sys2Proof.Machine

/-! ## A routine on a cooperative bus (R471): its polls are taken, its bytes acknowledged -/

theorem Cooperative.drop {n m : Nat} {s : State} (h : Cooperative (n + m) s) : Cooperative m (s.pollsDrawn n) := by
  obtain ⟨hlen, hall⟩ := h
  refine ⟨?_, ?_⟩
  · simp only [State.pollsDrawn, List.length_drop]
    omega
  · rw [List.take_add, List.all_append, Bool.and_eq_true] at hall
    exact hall.2

theorem Cooperative.take {n m : Nat} {s : State} (h : Cooperative (n + m) s) : Cooperative n s := by
  obtain ⟨hlen, hall⟩ := h
  refine ⟨by omega, ?_⟩
  rw [List.take_add, List.all_append, Bool.and_eq_true] at hall
  exact hall.1

theorem Cooperative.drawPoll {s : State} (h : Cooperative 1 s) :
    ∃ d : BusDraw, d.tx = .acked ∧ s.drawPoll = (.taken d, s.pollsDrawn 1) := by
  obtain ⟨hlen, hall⟩ := h
  unfold State.drawPoll State.pollsDrawn
  cases hp : s.env.polls with
  | nil => simp [hp] at hlen
  | cons p rest =>
    cases p with
    | withheld => simp [hp, PollDraw.cooperative] at hall
    | taken d => exact ⟨d, by simpa [hp, PollDraw.cooperative] using hall, rfl⟩

theorem State.pollsDrawn_add (s : State) (n m : Nat) : (s.pollsDrawn n).pollsDrawn m = s.pollsDrawn (n + m) := by
  simp only [State.pollsDrawn, List.drop_drop]

/-- On the next `n` polls, all cooperative, `f` answers 0 and makes `y` of the bus `x`. -/
def Cooperates (i : BusId) (f : State → Word × State) (n : Nat) (x y : Bus) : Prop :=
  ∀ s : State, Cooperative n s → f (s.setBus i x) = (0, (s.pollsDrawn n).setBus i y)

section Cooperates

variable {i : BusId} {f g : State → Word × State} {n m : Nat} {x y z : Bus}

theorem Cooperates.seqThen (hf : Cooperates i f n x y) (hg : Cooperates i g m y z) :
    Cooperates i (fun s => seqThen (f s) g) (n + m) x z := by
  intro s hs
  dsimp only
  rw [Machine.seqThen, hf s hs.take, if_pos rfl, hg _ hs.drop, State.pollsDrawn_add]

theorem Cooperates.modCore {k : BusCore → BusCore} (h : Cooperates i f n (x.modCore k) y) :
    Cooperates i (fun s => f (s.modCore i k)) n x y := by
  intro s hs
  dsimp only
  rw [State.modCore_setBus]
  exact h s hs

theorem Cooperates.nothing (i : BusId) (x : Bus) : Cooperates i (fun s => (0, s)) 0 x x := fun _ _ => rfl

end Cooperates

/-- A core that owns the bus and transmits, with nothing pending and no failure left from before. -/
structure Transmits (c : BusCore) : Prop where
  enabled : c.moden = true
  owner : c.owner = true
  dir : c.dir = .tx
  free : c.pend = .none
  won : c.arblost = false
  acked : c.rxnack = false

theorem Transmits.core_settled {c : BusCore} (h : Transmits c) : { c with rxnack := false, pend := .none } = c := by
  rw [← h.free, ← h.acked]

/-- The bus after the acknowledged byte `b`, the last of those that put `l` on the wire (R162, R195). -/
def Bus.sent (x : Bus) (b : Byte) (l : List Sym) : Bus :=
  { x with core := { x.core with data := b, bnd := false }, trace := x.trace ++ l }

theorem Bus.sent_sent (x : Bus) (b c : Byte) (k l : List Sym) : (x.sent b k).sent c l = x.sent c (k ++ l) :=
  congrArg (fun w => { x with core := { x.core with data := c, bnd := false }, trace := w }) (List.append_assoc ..)

theorem Bus.sent_emit_sent (x : Bus) (b c : Byte) (y : Sym) (k l : List Sym) :
    ((x.sent b k).emit y).sent c l = x.sent c (k ++ y :: l) := by
  simp [Bus.sent, Bus.emit]

theorem Transmits.sent {x : Bus} (h : Transmits x.core) (b : Byte) (l : List Sym) : Transmits (x.sent b l).core :=
  { h with }

theorem Transmits.emit {x : Bus} (h : Transmits x.core) (y : Sym) : Transmits (x.emit y).core := h

theorem cooperates_seqTxByte (i : BusId) {x : Bus} (h : Transmits x.core) (b : Byte) :
    Cooperates i (seqTxByte i b) 1 x (x.sent b [.w b .ack]) := by
  intro s hs
  obtain ⟨d, hack, hdraw⟩ := hs.drawPoll
  have hx : (x.offered b).busStep d = (x.offered b).ownerByte b .acked := by
    rw [Bus.busStep_ownerByte (b := x.offered b) d h.enabled rfl h.owner, hack]
  have hdone := seqTxByte_done (i := i) (b := b) (s := s.setBus i x) (d := d) (x := (x.offered b).ownerByte b .acked)
  simp only [State.setBus_core, State.setBus_bus_same, State.drawPoll_setBus, State.setBus_setBus, hdraw] at hdone
  have hacked : ((x.offered b).ownerByte b .acked).core.rxnack = false := h.acked
  rw [hdone h.enabled h.free h.won h.dir (.inl h.owner) trivial hx rfl h.won, hacked]
  exact congrArg (fun c => ((0 : Word), (s.pollsDrawn 1).setBus i (Bus.sent { x with core := c } b [.w b .ack])))
    h.core_settled

/-- The bus after its start, or its repeated start where it was the owner already (R192, R193). -/
def Bus.startSent (x : Bus) : Bus :=
  { x with
    core := { x.core with busy := true, owner := true, startf := false, pend := .none }
    trace := x.trace ++ [if x.core.owner then .sr else .s] }

theorem cooperates_seqStart (i : BusId) {x : Bus} (hm : x.core.moden = true) (hs : x.core.mstr = true)
    (ho : x.core.owner = false) (hb : x.core.busy = false) : Cooperates i (seqStart i) 1 x x.startSent := by
  intro s hc
  obtain ⟨d, -, hdraw⟩ := hc.drawPoll
  have hk : (x.core.clearFlag .startf).start = { x.core with startf := false, pend := .start } := by
    simp [BusCore.start_eq, BusCore.clearFlag, hm, hs, ho]
  have hrun := seqCondition_taken (i := i) (s := s.setBus i x) (request := .start) (cond := fun c => c.startf && c.busy)
    (k := { x.core with startf := false, pend := .start }) (by rw [State.setBus_core]; exact hk) rfl (d := d)
    (by rw [State.drawPoll_setBus, hdraw]) (by simp [BusCore.canComplete, hm, hb])
    (Bus.busStep_start_free d hm rfl hb)
  rw [seqStart, hrun, State.drawPoll_setBus, hdraw, State.setBus_setBus, State.setBus_bus_same]
  simp [Bus.startSent, Bus.modCore, Bus.emit, ho]

theorem cooperates_seqRstart (i : BusId) {x : Bus} (hm : x.core.moden = true) (ho : x.core.owner = true)
    (hb : x.core.busy = true) : Cooperates i (seqRstart i) 1 x x.startSent := by
  intro s hc
  obtain ⟨d, -, hdraw⟩ := hc.drawPoll
  have hk : (x.core.clearFlag .startf).rstart = { x.core with startf := false, pend := .rstart } := by
    simp [BusCore.rstart_eq, BusCore.clearFlag, hm, ho]
  have hrun := seqCondition_taken (i := i) (s := s.setBus i x) (request := .rstart) (cond := fun c => c.startf)
    (k := { x.core with startf := false, pend := .rstart }) (by rw [State.setBus_core]; exact hk) rfl (d := d)
    (by rw [State.drawPoll_setBus, hdraw]) (by simp [BusCore.canComplete, hm]) (Bus.busStep_rstart d hm rfl)
  rw [seqRstart, hrun, State.drawPoll_setBus, hdraw, State.setBus_setBus, State.setBus_bus_same]
  simp [Bus.startSent, Bus.modCore, Bus.emit, ho, hb]

/-! ## The address phase on a cooperative bus (R113, R200) -/

/-- A repeated start of a transmitter changes nothing but the wire. -/
theorem Bus.startSent_owner {x : Bus} (h : Transmits x.core) (hb : x.core.busy = true) (hs : x.core.startf = false) :
    x.startSent = x.emit .sr := by
  have hcore : { x.core with busy := true, owner := true, startf := false, pend := .none } = x.core := by
    obtain ⟨-, ho, -, hp, -, -⟩ := h
    cases hc : x.core
    simp_all
  rw [Bus.startSent, hcore, h.owner]
  rfl

theorem cooperates_seqAddressBytes (i : BusId) {x : Bus} (h : Transmits x.core) (hb : x.core.busy = true)
    (hs : x.core.startf = false) (o : Bool) (a : BitVec 10) (addr10 : Bool) (d : WireDir) :
    Cooperates i (seqAddressBytes i a addr10 d) (addressWire o a addr10 d).tail.length x
      (x.sent (lastAddressByte a addr10 d) (addressWire o a addr10 d).tail) := by
  cases addr10 with
  | false => exact cooperates_seqTxByte i h _
  | true =>
    have written := (cooperates_seqTxByte i h (pfx a .write)).seqThen
      (cooperates_seqTxByte i (h.sent _ [.w (pfx a .write) .ack]) (lowByte a))
    rw [Bus.sent_sent] at written
    cases d with
    | write => exact written.seqThen (.nothing i _)
    | read =>
      have h2 := h.sent (lowByte a) ([.w (pfx a .write) .ack] ++ [.w (lowByte a) .ack])
      have again := cooperates_seqRstart i h2.enabled h2.owner hb
      rw [Bus.startSent_owner h2 hb hs] at again
      have last := again.seqThen (cooperates_seqTxByte i (h2.emit .sr) (pfx a .read))
      rw [Bus.sent_emit_sent] at last
      exact written.seqThen last

theorem CoreReady.busy {c : BusCore} (h : CoreReady c) (ho : c.owner = true) : c.busy = true := by
  have := h.ok
  simp_all [BusCore.ok]

/-- An address phase on a ready core that no failure is left on (R113, R200). -/
theorem cooperates_seqAddress (i : BusId) (d : WireDir) {x : Bus} (h : CoreReady x.core) (hlost : x.core.arblost = false)
    (hacked : x.core.rxnack = false) :
    Cooperates i (seqAddress i d) (addressWire x.core.owner x.m.slaveAddr x.m.addr10 d).length x
      { x with
        trace := x.trace ++ addressWire x.core.owner x.m.slaveAddr x.m.addr10 d
        core :=
          { x.core with
            dir := .tx, busy := true, owner := true, startf := false, bnd := false, pend := .none
            data := lastAddressByte x.m.slaveAddr x.m.addr10 d } } := by
  have started : Cooperates i (fun s => if (s.core i).owner then seqRstart i s else seqStart i s) 1 x x.startSent := by
    intro s hs
    dsimp only
    rw [State.setBus_core]
    cases ho : x.core.owner with
    | true => exact cooperates_seqRstart i h.enabled ho (h.busy ho) s hs
    | false => exact cooperates_seqStart i h.enabled h.master ho (h.bus.resolve_left (by simp [ho])) s hs
  have ready : Transmits (x.startSent.modCore (·.setDir .tx)).core :=
    ⟨h.enabled, rfl, rfl, rfl, hlost, hacked⟩
  have bytes := (cooperates_seqAddressBytes i ready rfl rfl x.core.owner x.m.slaveAddr x.m.addr10 d).modCore
  intro s hs
  have hrun := (started.seqThen bytes) s (by rwa [Nat.add_comm])
  rw [seqAddress, State.setBus_m]
  rw [Nat.add_comm] at hrun
  refine hrun.trans ?_
  simp only [Bus.sent, Bus.startSent, Bus.modCore, BusCore.setDir, List.append_assoc]
  rfl

end Sys2Proof.Machine

namespace Sys2Proof.Machine

/-! ## The kick of the transport on a bus as it stands (R355) -/

/-- The core as the bulk part of a data phase, if there is one, arms it: the channel serves the bytes, not their event. -/
def BusCore.bulkArmed (c : BusCore) (r : Dir) (bulk : Bool) : BusCore :=
  if bulk then (c.setEnable .bndie false).setDmareq r true else c

section BulkArmed

variable {c : BusCore} (h : c.bndie = true) (bulk : Bool)
include h

theorem BusCore.bulkArmed_tx : c.bulkArmed .tx bulk = { c with bndie := !bulk, dmatxen := bulk || c.dmatxen } := by
  obtain ⟨⟩ := c
  cases h
  cases bulk <;> rfl

theorem BusCore.bulkArmed_rx : c.bulkArmed .rx bulk = { c with bndie := !bulk, dmarxen := bulk || c.dmarxen } := by
  obtain ⟨⟩ := c
  cases h
  cases bulk <;> rfl

end BulkArmed

/-- The calls of a bulk transfer leave the channel started. -/
theorem dmaStart_dmaInstall_dmaConfigure (i : BusId) (c : Chan) (a b : Endpoint) (n : Word) (d : DmaDir) (s : State) :
    dmaStart c (dmaInstall c i (dmaConfigure c a b n d s)) = s.channelStarted true c a b n d i := by
  simp [dmaStart, dmaInstall, dmaConfigure, State.channelStarted, State.modChan, State.setChan, State.chan, State.logDma]

theorem bulkIf_setBus (q : Prop) [Decidable q] (i : BusId) (c : Chan) (a b : Endpoint) (n : Word) (d : DmaDir) (r : Dir)
    (s : State) (x : Bus) :
    (if q then dmaBulk i c a b n d r (s.setBus i x) else s.setBus i x) =
      (s.channelStarted (decide q) c a b n d i).setBus i (x.modCore (·.bulkArmed r (decide q))) := by
  by_cases hq : q
  · have hconf (y : Bus) (t : State) : dmaInstall c i (dmaConfigure c a b n d (t.setBus i y)) =
        (dmaInstall c i (dmaConfigure c a b n d t)).setBus i y := rfl
    have hstart (y : Bus) (t : State) : dmaStart c (t.setBus i y) = (dmaStart c t).setBus i y := rfl
    rw [if_pos hq, decide_eq_true hq, dmaBulk, State.modCore_setBus, hconf, State.modCore_setBus, hstart,
      dmaStart_dmaInstall_dmaConfigure]
    rfl
  · rw [if_neg hq, decide_eq_false hq]
    rfl

theorem State.channelStarted_load (s : State) (bulk : Bool) (c : Chan) (a b : Endpoint) (n : Word) (d : DmaDir) (i : BusId)
    (w : Word) : (s.channelStarted bulk c a b n d i).load w = s.load w := by
  cases bulk <;> rfl

theorem masterSendStep_setBus (i : BusId) {t : State} {y : Bus} {a : Word} (hn : y.m.txRemaining ≠ 0)
    (ha : y.m.txBuf = .some a) :
    masterSendStep i (t.setBus i y) =
      t.setBus i { y with core := y.core.writeData (t.load a), m := y.m.modX (·.advanceTx 1) } := by
  rw [masterSendStep, State.setBus_m, if_pos hn, State.modMX_setBus, State.modCore_setBus, ha]
  rfl

theorem BusCore.writeData_owner {c : BusCore} {b : Byte} (hm : c.moden = true) (ho : c.owner = true) (hd : c.dir = .tx) :
    c.writeData b = { c with data := b, bnd := false, pend := .txByte b } := by
  rw [c.writeData_eq, if_pos ⟨hm, hd, .inl ho⟩]

theorem BusCore.readData_owner {c : BusCore} (hm : c.moden = true) (ho : c.owner = true) (hs : c.mstr = true)
    (hd : c.dir = .rx) : c.readData = { c with bnd := false, pend := .rxByte } := by
  rw [c.readData_eq, if_pos ⟨hm, hs, ho, hd⟩]

section Kick

variable {i : BusId} {n : Word} {s : State} {x : Bus} {a : Word} {bulk : Bool} (hm : x.core.moden = true)
  (ho : x.core.owner = true) (hie : x.core.bndie = true)
include hm ho hie

/-- The kick of a send hands over the first byte; in DMA transport the channel holds the rest. -/
theorem masterKickSend_setBus (hd : x.core.dir = .tx) (hn : x.m.txRemaining ≠ 0) (ha : x.m.txBuf = .some a)
    (hbulk : decide (x.m.transport = .dma ∧ 2 ≤ n) = bulk) :
    masterKickSend i n (s.setBus i x) =
      (s.channelStarted bulk x.m.dmaChannel (.mem (a + 1)) (.data i) (n - 1) .mem2dev i).setBus i
        { x with
          core :=
            { x.core with
              bndie := !bulk, dmatxen := bulk || x.core.dmatxen, data := s.load a, bnd := false
              pend := .txByte (s.load a) }
          m := x.m.modX (·.advanceTx 1) } := by
  have hcore (v : Byte) : (x.core.bulkArmed .tx bulk).writeData v =
      { x.core with
        bndie := !bulk, dmatxen := bulk || x.core.dmatxen, data := v, bnd := false, pend := .txByte v } := by
    rw [BusCore.bulkArmed_tx hie]
    exact BusCore.writeData_owner hm ho hd
  rw [masterKickSend, State.setBus_m, bulkIf_setBus, hbulk, ha,
    masterSendStep_setBus i (y := x.modCore (·.bulkArmed .tx bulk)) hn ha, State.channelStarted_load]
  exact congrArg (fun c => State.setBus _ i { x with core := c, m := x.m.modX (·.advanceTx 1) }) (hcore _)

/-- The kick of a receive arms the acknowledge of the first byte and requests it; in DMA transport the channel is to move
all but the last two. -/
theorem masterKickRecv_setBus (hs : x.core.mstr = true) (ha : x.m.rxBuf = .some a)
    (hbulk : decide (x.m.transport = .dma ∧ 3 ≤ n) = bulk) :
    masterKickRecv i n (s.setBus i x) =
      (s.channelStarted bulk x.m.dmaChannel (.data i) (.mem a) (n - 2) .dev2mem i).setBus i
        { x with
          core :=
            { x.core with
              bndie := !bulk, dmarxen := bulk || x.core.dmarxen, dir := .rx, acksel := if n = 1 then .nack else .ack
              bnd := false, pend := .rxByte } } := by
  have hcore (v : Ack) : (((x.core.bulkArmed .rx bulk).setDir .rx).setAck v).readData =
      { x.core with
        bndie := !bulk, dmarxen := bulk || x.core.dmarxen, dir := .rx, acksel := v, bnd := false, pend := .rxByte } := by
    rw [BusCore.bulkArmed_rx hie]
    exact BusCore.readData_owner hm ho hs rfl
  rw [masterKickRecv, State.setBus_m, bulkIf_setBus, hbulk, ha, State.modCore_setBus]
  exact congrArg (fun c => State.setBus _ i { x with core := c }) (hcore _)

end Kick

/-! ## A start command on a cooperative bus (R227) -/

/-- The bus in its data phase, before the kick: the address phase of the transfer `m` is on the wire. -/
def Bus.addressed (x : Bus) (m : MCtx) (d : WireDir) : Bus :=
  { x with
    core :=
      { x.core with
        dir := .tx, busy := true, owner := true, startf := false, bnd := false, rxnack := false, arblost := false
        nackie := true, arbie := true, bndie := true, pend := .none
        data := lastAddressByte m.slaveAddr m.addr10 d }
    m := m, phase := .data, trace := x.trace ++ addressWire x.core.owner m.slaveAddr m.addr10 d }

theorem CoreReady.transportArm {c : BusCore} (h : CoreReady c) : CoreReady c.transportArm := by
  rw [c.transportArm_eq]
  exact { h with }

theorem masterBegin_cooperative (i : BusId) (kind : Dir) (buf len : Word) (stop : Bool) {s : State} {x : Bus}
    (h : CoreReady x.core)
    (hs : Cooperative (addressWire x.core.owner x.m.slaveAddr x.m.addr10 (wireOf kind)).length s) :
    masterBegin i kind buf len stop (s.setBus i x) =
      (.success, masterKick i kind len
        ((s.pollsDrawn (addressWire x.core.owner x.m.slaveAddr x.m.addr10 (wireOf kind)).length).setBus i
          (x.addressed (x.m.begin kind buf len stop) (wireOf kind)))) := by
  have hbegun : (s.setBus i x).begun i kind buf len stop =
      s.setBus i { x with core := x.core.transportArm, m := x.m.begin kind buf len stop, phase := .address } := by
    rw [State.begun, State.modM, State.modBus_setBus, State.modCore_setBus, State.setPhase_setBus, Bus.modM, Bus.modCore,
      Bus.setPhase]
  have ha : (x.m.begin kind buf len stop).slaveAddr = x.m.slaveAddr := by cases kind <;> rfl
  have h10 : (x.m.begin kind buf len stop).addr10 = x.m.addr10 := by cases kind <;> rfl
  have hready : CoreReady x.core.transportArm := h.transportArm
  have hrun := cooperates_seqAddress i (wireOf kind)
    (x := { x with core := x.core.transportArm, m := x.m.begin kind buf len stop, phase := .address }) hready
    (by rw [x.core.transportArm_eq]) (by rw [x.core.transportArm_eq]) s
  simp only [ha, h10, BusCore.transportArm_owner, ← hbegun] at hrun
  rw [masterBegin_of_address (hrun hs), if_neg (not_not_intro rfl), State.setPhase_setBus, Bus.setPhase]
  simp only [Bus.addressed, ha, h10, BusCore.transportArm_eq]

end Sys2Proof.Machine

namespace Sys2Proof.Machine

/-! ## The start commands on a cooperative bus (R225, R230, R382) -/

/-- The bus as a start command finds it, with the caller of a blocking one marked (R382). -/
def Bus.calling (x : Bus) (blk : Bool) : Bus :=
  if blk then { x with m := x.m.modX fun y => { y with blocking := true }, sem := 0 } else x

theorem State.beforeStart_eq (s : State) (i : BusId) (blk : Bool) :
    s.beforeStart i blk = s.setBus i ((s.bus i).calling blk) := by
  cases blk with
  | false => exact (s.setBus_self i).symm
  | true =>
    rw [State.beforeStart, if_pos rfl]
    exact State.modBus_setBus s i _ Bus.semClear

section Start

variable {i : BusId} {kind : Dir} {stop : Bool} {s : State} (h : IdleMaster i s) (hbuf : GoodBuffer s)
  (hready : CoreReady (s.core i))
  (hs : Cooperative (addressWire (s.core i).owner (s.m i).slaveAddr (s.m i).addr10 (wireOf kind)).length s)
include h hbuf hready hs

theorem startCommand_cooperative {r : Bool → State} {y : Bool → Bus}
    (hkick : ∀ blk, masterKick i kind s.port.arg1
      ((s.pollsDrawn (addressWire (s.core i).owner (s.m i).slaveAddr (s.m i).addr10 (wireOf kind)).length).setBus i
        (((s.bus i).calling blk).addressed (((s.bus i).calling blk).m.begin kind s.port.arg0 s.port.arg1 stop)
          (wireOf kind))) = (r blk).setBus i (y blk)) :
    startCommand i kind false stop s = .next (((r false).setBus i (y false)).setRet .success) ∧
      startCommand i kind true stop s = .next ((r true).setBus i { y true with wait := .some s.port.arg2 }) := by
  have hbegin (blk : Bool) : masterBegin i kind s.port.arg0 s.port.arg1 stop (s.beforeStart i blk) =
      (.success, (r blk).setBus i (y blk)) := by
    rw [State.beforeStart_eq, ← hkick]
    cases blk with
    | false => exact masterBegin_cooperative i kind _ _ stop hready hs
    | true => exact masterBegin_cooperative i kind _ _ stop hready hs
  refine ⟨startCommand_run false h hbuf (hbegin false), (startCommand_run true h hbuf (hbegin true)).trans ?_⟩
  rw [if_neg Bool.noConfusion, if_pos rfl, State.modBus_setBus]

end Start

/-- Settles O40: the kick of a send on the bus that the address phase leaves. -/
theorem masterSendStarts : Obligations.MasterSendStarts := by
  unfold Obligations.MasterSendStarts
  intro i stop s h hbuf hready hs
  have hkick (blk : Bool) := masterKickSend_setBus (i := i) (n := s.port.arg1)
    (s := s.pollsDrawn (addressWire (s.core i).owner (s.m i).slaveAddr (s.m i).addr10 .write).length)
    (x := ((s.bus i).calling blk).addressed (((s.bus i).calling blk).m.begin .tx s.port.arg0 s.port.arg1 stop) .write)
    (a := s.port.arg0) (by cases blk <;> exact hready.enabled) rfl rfl rfl hbuf.pos rfl rfl
  obtain ⟨hsend, hblk⟩ := startCommand_cooperative h hbuf hready hs (kind := .tx) (stop := stop) hkick
  refine ⟨decide ((s.m i).transport = .dma ∧ 2 ≤ s.port.arg1), _, _, _, .some ⟨s.port.arg0, s.port.arg1⟩, .none,
    decide_eq_true_iff, rfl, rfl, rfl, ?_, ?_⟩
  · exact (exec_startCommand (d := .tx) (blk := false) rfl).trans hsend
  · exact (exec_startCommand (d := .tx) (blk := true) rfl).trans hblk

/-- Settles O41: the kick of a receive on the bus that the address phase leaves. -/
theorem masterReceiveStarts : Obligations.MasterReceiveStarts := by
  unfold Obligations.MasterReceiveStarts
  intro i stop s h hbuf hready hs
  have hkick (blk : Bool) := masterKickRecv_setBus (i := i) (n := s.port.arg1)
    (s := s.pollsDrawn (addressWire (s.core i).owner (s.m i).slaveAddr (s.m i).addr10 .read).length)
    (x := ((s.bus i).calling blk).addressed (((s.bus i).calling blk).m.begin .rx s.port.arg0 s.port.arg1 stop) .read)
    (a := s.port.arg0) (by cases blk <;> exact hready.enabled) rfl rfl (by cases blk <;> exact hready.master) rfl rfl
  obtain ⟨hrecv, hblk⟩ := startCommand_cooperative h hbuf hready hs (kind := .rx) (stop := stop) hkick
  refine ⟨decide ((s.m i).transport = .dma ∧ 3 ≤ s.port.arg1), _, _, _, .none, .some ⟨s.port.arg0, s.port.arg1⟩,
    decide_eq_true_iff, rfl, rfl, rfl, ?_, ?_⟩
  · exact (exec_startCommand (d := .rx) (blk := false) rfl).trans hrecv
  · exact (exec_startCommand (d := .rx) (blk := true) rfl).trans hblk

end Sys2Proof.Machine

/-! # The proofs of the family 43_slave.md: lending, starting, serving and ending a slave's transfer (R280 to R315,
R360 to R366) -/

namespace Sys2Proof.Machine

/-! ## Updates of the slave context of a state whose bus `i` is `b` -/

section SetBusSlave

variable (s : State) (i : BusId) (b : Bus)

@[simp] theorem State.setBus_s : (s.setBus i b).s i = b.s := by rw [State.s_eq, State.setBus_bus_same]

theorem State.modS_setBus (f : SCtx → SCtx) : (s.setBus i b).modS i f = s.setBus i (b.modS f) := s.modBus_setBus i b _

theorem State.modSX_setBus (f : Xfer → Xfer) : (s.setBus i b).modSX i f = s.setBus i (b.modS (·.modX f)) :=
  s.modBus_setBus i b (·.modS (·.modX f))

end SetBusSlave

/-! ## Lending (R281, R282) -/

/-- No transfer of the instance is moving bytes over its channel, so that a buffer may be lent (U11). -/
def channelStill (i : BusId) (s : State) (x : SCtx) : Prop :=
  x.transport = .int ∨ (s.chan x.dmaChannel).active = false ∨ (s.chan x.dmaChannel).owner ≠ .some i

theorem channelMoving_eq_false {i : BusId} {s : State} (h : channelStill i s (s.s i)) : channelMoving i s = false := by
  rcases h with h | h | h <;> simp [channelMoving, h]

theorem exec_slaveSetBuf {i : BusId} {s : State} (hr : (s.bus i).role = .slave) (hbuf : GoodBuffer s)
    (h : channelStill i s (s.s i)) (d : Dir) :
    slaveSetBuf i d s = .next ((s.modS i (·.lendSet d s.port.arg0 s.port.arg1)).setRet .success) := by
  have hk : (s.bus i).turnAway .sLend = .none := Bus.turnAway_any (by rw [hr]; decide) (by rw [hr]; rfl) rfl rfl
  rw [slaveSetBuf, admitted_run hk, withBuffer_good hbuf, slaveLend, channelMoving_eq_false h]
  rfl

/-- Settles O49: the two commands are one, and lending writes the fields of its direction. -/
theorem slaveLendsBuffer : Obligations.SlaveLendsBuffer := by
  unfold Obligations.SlaveLendsBuffer
  intro i s hr hbuf hstill
  exact ⟨⟨(s.s i).lendSet .tx s.port.arg0 s.port.arg1, exec_slaveSetBuf hr hbuf hstill .tx⟩,
    ⟨(s.s i).lendSet .rx s.port.arg0 s.port.arg1, exec_slaveSetBuf hr hbuf hstill .rx⟩⟩

/-! ## Starting (R283 to R285, R385, R387) -/

theorem BusCore.slaveArm_eq (c : BusCore) :
    c.slaveArm =
      { c with
        stopf := false, rxnack := false, bnd := false, addrie := true, stopie := true, nackie := true, bndie := true } := by
  simp only [BusCore.slaveArm, BusCore.clearFlag, BusCore.setEnable]

theorem BusCore.slaveDisarm_eq (c : BusCore) :
    c.slaveDisarm =
      { c with addrie := false, stopie := false, nackie := false, bndie := false, dmatxen := false, dmarxen := false } := by
  simp only [BusCore.slaveDisarm, BusCore.setEnable, BusCore.dmareqOff, BusCore.setDmareq]

/-- The core as S_SEND and S_RECV arm it, beside a channel that serves the bytes when `beside` says so (R284, R350, R354). -/
def BusCore.armedBeside (c : BusCore) (beside : Bool) : BusCore :=
  { c with
    stopf := false, rxnack := false, bnd := false, addrie := true, stopie := true, nackie := true, bndie := !beside }

/-- The context once a transfer has been accepted (R283, R285). -/
def SCtx.accept (x : SCtx) (d : Dir) (buf len : Word) : SCtx :=
  (x.lendStart d buf len).modX fun y => { y with lastResult := .busy, idle := false }

theorem SCtx.accept_frame (x : SCtx) (d : Dir) (buf len : Word) :
    (x.accept d buf len).listening = x.listening ∧ (x.accept d buf len).inProgress = x.inProgress ∧
      (x.accept d buf len).transport = x.transport ∧ (x.accept d buf len).dmaChannel = x.dmaChannel := by
  cases d <;> exact ⟨rfl, rfl, rfl, rfl⟩

/-- The channel serves the bytes of a transfer of the context `x` (R350, R354). -/
def channelServing (i : BusId) (s : State) (x : SCtx) : Bool :=
  decide (x.transport = .dma ∧ (s.chan x.dmaChannel).owner = .some i ∧ (s.chan x.dmaChannel).live = true)

theorem channelServes_eq (i : BusId) (s : State) : channelServes i s = channelServing i s (s.s i) := by
  rw [Bool.eq_iff_iff, channelServes, channelServing, decide_eq_true_iff]
  simp only [Bool.and_eq_true, beq_iff_eq, and_assoc, and_comm (a := (s.chan _).live = true)]

theorem slaveArmBeside_setBus (i : BusId) (s : State) (b : Bus) :
    slaveArmBeside i (s.setBus i b) = s.setBus i (b.modCore (·.armedBeside (channelServing i s b.s))) := by
  rw [slaveArmBeside, channelServes_eq, State.setBus_s, State.modCore_setBus]
  simp only [Bus.modCore, BusCore.slaveArm_eq, BusCore.setEnable, BusCore.armedBeside]
  rfl

/-- The bus once a transfer has been accepted. -/
def Bus.accepted (b : Bus) (i : BusId) (s : State) (d : Dir) (buf len : Word) : Bus :=
  { b with
    core := if b.s.listening then b.core else b.core.armedBeside (channelServing i s b.s)
    phase := if b.s.inProgress then b.phase else .armed
    s := b.s.accept d buf len }

theorem slaveAccept_setBus (i : BusId) (d : Dir) (buf len : Word) (s : State) (b : Bus) :
    slaveAccept i d buf len (s.setBus i b) = s.setBus i (b.accepted i s d buf len) := by
  obtain ⟨hl, hp, ht, hc⟩ := b.s.accept_frame d buf len
  have hserving : channelServing i s (b.s.accept d buf len) = channelServing i s b.s := by
    rw [channelServing, ht, hc, channelServing]
  have hphase : (if (b.s.accept d buf len).inProgress then s.setBus i (b.modS (·.accept d buf len))
      else (s.setBus i (b.modS (·.accept d buf len))).setPhase i .armed) =
      s.setBus i { b with phase := if b.s.inProgress then b.phase else .armed, s := b.s.accept d buf len } := by
    rw [hp]
    cases b.s.inProgress with
    | true => rfl
    | false => exact State.setPhase_setBus ..
  have hlent : (s.setBus i b).modS i (·.accept d buf len) = s.setBus i (b.modS (·.accept d buf len)) :=
    State.modS_setBus ..
  unfold slaveAccept
  change (let t := (s.setBus i b).modS i (·.accept d buf len)
    let u := if (t.s i).inProgress then t else t.setPhase i .armed
    if (u.s i).listening then u else slaveArmBeside i u) = _
  simp only [hlent, State.setBus_s, Bus.modS_s, hphase, hl, slaveArmBeside_setBus, hserving, Bus.accepted]
  cases b.s.listening <;> rfl

section Start

variable {i : BusId} {s : State} (h : IdleSlave i s) (hbuf : GoodBuffer s) (d : Dir)
include h hbuf

theorem IdleSlave.slaveStart_run :
    slaveStart i d s =
      .next ((s.setBus i ((s.bus i).accepted i s d s.port.arg0 s.port.arg1)).setRet .success) := by
  have haccept := slaveAccept_setBus i d s.port.arg0 s.port.arg1 s (s.bus i)
  rw [State.setBus_self] at haccept
  rw [slaveStart, admitted_run (h.idleAt.turnAway (by rw [h.role]; rfl)), withBuffer_good hbuf, haccept]

/-- The caller of a blocking form is marked first, and suspended last (R385). -/
theorem IdleSlave.slaveStartBlk_run :
    slaveStartBlk i d s =
      .next (s.setBus i
        { (s.bus i).accepted i s d s.port.arg0 s.port.arg1 with
          s := ((s.s i).accept d s.port.arg0 s.port.arg1).modX fun y => { y with blocking := true }
          sem := 0, wait := .some s.port.arg2 }) := by
  have hmarked : (s.modSX i fun x => { x with blocking := true }).modBus i .semClear =
      s.setBus i (((s.bus i).modS (·.modX fun x => { x with blocking := true })).semClear) := State.modBus_setBus ..
  rw [slaveStartBlk, admitted_run (h.idleAt.turnAway (by rw [h.role]; rfl)), withBuffer_good hbuf, hmarked,
    slaveAccept_setBus, State.modBus_setBus]
  cases d <;> rfl

end Start

/-- Settles O50: acceptance is one update of the bus for both directions; a blocking form also marks and suspends its caller. -/
theorem slaveAcceptsTransfer : Obligations.SlaveAcceptsTransfer := by
  unfold Obligations.SlaveAcceptsTransfer
  intro i s h hbuf
  exact ⟨_, _, _, _, (s.s i).accept .tx s.port.arg0 s.port.arg1, (s.s i).accept .rx s.port.arg0 s.port.arg1, rfl, rfl, rfl,
    rfl, h.slaveStart_run hbuf .tx, h.slaveStart_run hbuf .rx, h.slaveStartBlk_run hbuf .tx, h.slaveStartBlk_run hbuf .rx⟩

/-! ## S_ABORT (R310) -/

theorem Bus.postS_eq (b : Bus) : b.postS = { b with sem := if b.s.blocking then b.sem + 1 else b.sem } := by
  unfold Bus.postS
  split <;> rfl

/-- The end of a context that was busy is marked on `dmatrace` (R57). -/
def State.idleMarked (s : State) (i : BusId) (idle : Bool) : State :=
  { s with dmatrace := s.dmatrace ++ if idle then [] else [.idle i] }

theorem slaveIdle_setBus (i : BusId) (s : State) (b : Bus) :
    slaveIdle i (s.setBus i b) =
      (s.idleMarked i b.s.idle).setBus i (b.modS (·.modX fun x => { x with idle := true })) := by
  rw [slaveIdle, State.setBus_s, State.idleMarked]
  cases hidle : b.s.idle with
  | true =>
    have hsame : b.modS (·.modX fun x => { x with idle := true }) = b := by
      rw [← hidle]
      rfl
    rw [hsame, if_pos rfl, if_pos rfl, List.append_nil]
  | false =>
    rw [if_neg Bool.false_ne_true, State.modSX_setBus]
    rfl

/-- The abort path: sources off, channel stopped, buffers and result, idle and post, a listening slave armed again. -/
theorem slaveAbort_eq (i : BusId) (s : State) :
    slaveAbort i s =
      ((s.channelStopped (s.s i).toXfer).idleMarked i (s.s i).idle).setBus i
        { s.bus i with
          core := if (s.s i).listening then (s.core i).slaveDisarm.slaveArm else (s.core i).slaveDisarm
          s :=
            ((s.s i).giveBack.modX fun y => { y with lastResult := .aborted, idle := true }).leaveTransfer
          phase := .idle
          sem := if (s.s i).blocking then (s.bus i).sem + 1 else (s.bus i).sem } := by
  have hstopped : dmaStopIf (s.s i).toXfer (s.modCore i .slaveDisarm) =
      (s.channelStopped (s.s i).toXfer).setBus i ((s.bus i).modCore .slaveDisarm) := State.channelStopped_setBus ..
  simp only [slaveAbort, hstopped, State.modS_setBus, slaveIdle_setBus, State.setPhase_setBus, State.modBus_setBus,
    State.modCore_setBus, State.setBus_s, Bus.postS_eq, Bus.modCore, Bus.modS, Bus.setPhase, SCtx.modX, SCtx.giveBack,
    SCtx.leaveTransfer, Xfer.unsetBufs_eq]
  by_cases hl : (s.s i).listening
  · rw [if_pos hl]
    exact if_pos hl
  · rw [if_neg hl]
    exact if_neg hl

theorem exec_sAbort {i : BusId} {s : State} (hr : (s.bus i).role = .slave) :
    exec (.sAbort i) s = .next ((if (s.s i).quiet then s else slaveAbort i s).setRet .success) := by
  rw [exec]
  exact admitted_run (Bus.turnAway_any (by rw [hr]; decide) (by rw [hr]; rfl) rfl rfl)

/-- A slave disarmed, and armed again where it listens. -/
theorem BusCore.rearmed_eq (c : BusCore) (listening : Bool) :
    (if listening then c.slaveDisarm.slaveArm else c.slaveDisarm) =
      { c with
        addrie := listening, stopie := listening, nackie := listening, bndie := listening, dmatxen := false
        dmarxen := false, stopf := c.stopf && !listening, rxnack := c.rxnack && !listening
        bnd := c.bnd && !listening } := by
  cases listening with
  | true => simp [BusCore.slaveDisarm_eq, BusCore.slaveArm_eq]
  | false => simp [BusCore.slaveDisarm_eq]

/-- Settles O51: the role decides on admission, and what is in flight on the abort path. -/
theorem slaveAbortResult : Obligations.SlaveAbortResult := by
  unfold Obligations.SlaveAbortResult
  refine fun i s => ⟨fun hr => ?wrong, fun hr hidle hnone => ?quiet, fun hr hflight => ?aborts⟩
  case wrong =>
    rw [exec]
    exact admitted_wrongRole (k := .sAbort) (by decide) (.inr (beq_false_of_ne hr))
  case quiet =>
    have hquiet : (s.s i).quiet = true := by rw [SCtx.quiet, hidle, hnone]; rfl
    rw [exec_sAbort hr, hquiet, if_pos rfl]
  case aborts =>
    have hbusy : (s.s i).quiet = false := by rcases hflight with h | h <;> simp [SCtx.quiet, h]
    rw [exec_sAbort hr, hbusy, if_neg Bool.false_ne_true, slaveAbort_eq, BusCore.rearmed_eq]
    exact ⟨(s.s i).giveBack, rfl⟩

/-! ## What adds no symbol to the wire (R315) -/

/-- The symbols of instance `i` so far are `l`. -/
def Traced (i : BusId) (l : List Sym) (s : State) : Prop := (s.bus i).trace = l

theorem Traced.modBus {i : BusId} {l : List Sym} {s : State} (hs : Traced i l s) {f : Bus → Bus}
    (hf : (f (s.bus i)).trace = (s.bus i).trace) : Traced i l (s.modBus i f) := by
  rw [Traced, State.modBus_bus_same, hf]
  exact hs

/-- Only bus steps add symbols: no update of the engine does. -/
theorem Traced.engineClosed (i : BusId) (l : List Sym) : EngineClosed i (Traced i l) where
  core _ _ _ hs := hs.modBus rfl
  master _ _ hs := hs.modBus rfl
  slave _ _ hs := hs.modBus rfl
  phase _ _ hs := hs.modBus rfl
  sem _ _ hs := hs.modBus rfl
  wait _ _ hs := hs.modBus rfl
  notify s e hs := hs.modBus ((s.bus i).notify_trace i e)
  chan _ _ _ hs := hs
  log _ _ hs := hs
  port _ _ hs := hs
  cb s hs := by rw [Traced, State.drawCb_bus]; exact hs
  free _ hs := hs
  given _ _ hs := hs.modBus rfl

theorem EngineClosed.exec_slaveOnly {P : State → Prop} {x : Instr} {s t : State} (h : EngineClosed x.inst P)
    (hx : x.slaveOnly = true) (hs : P s) (e : exec x s = .next t) : P t := by
  cases x <;> simp only [Instr.slaveOnly, Bool.false_eq_true] at hx <;> rw [exec] at e
  case sSetTxBuf i => exact h.slaveSetBuf hs e
  case sSetRxBuf i => exact h.slaveSetBuf hs e
  case sSend i => exact h.slaveStart hs e
  case sRecv i => exact h.slaveStart hs e
  case sSendBlk i => exact h.slaveStartBlk hs e
  case sRecvBlk i => exact h.slaveStartBlk hs e
  case sAbort i => exact h.sAbort hs e
  case sGetStatus i => exact h.sGetStatus hs e
  case setOwnAddr i addr10 =>
    refine h.admitted hs (fun t _ e => ?_) e
    split at e
    · cases e
      exact h.setRet _ hs
    · cases e
      exact h.setRet _ (h.slaveX _ (h.core s _ (.ownAddr _ _) hs))

/-- The timeout of a slave touches no wire. -/
theorem EngineClosed.timeout_slave {P : State → Prop} {i : BusId} {s : State} (h : EngineClosed i P)
    (hr : (s.bus i).role = .slave) (hs : P s) : P (timeout i s) := by
  have hfirst : P (timeoutDmaFirst i s) := closed_ite (h.dmaStopIf _ hs) hs
  have habort : P (timeoutAbort i s) := by
    rw [timeoutAbort, hr]
    exact closed_ite hs (h.slaveAbort hfirst)
  exact closed_ite (h.resume _ _ (h.modCtx _ habort)) hs

/-- Settles O56: the slave's operations consist of updates of the engine, and those add no symbol. -/
theorem slaveCommandsAddNoSymbol : Obligations.SlaveCommandsAddNoSymbol := by
  unfold Obligations.SlaveCommandsAddNoSymbol
  intro i s t hr h
  have engine := Traced.engineClosed i (s.bus i).trace
  have start : Traced i (s.bus i).trace s := rfl
  have store : StoreClosed (Traced i (s.bus i).trace) := fun _ _ _ hs => hs
  have dispatched {u : State} (e : dispatch i s = .next u) := engine.dispatch_slave store hr start e
  rcases h with ⟨x, hx, rfl, e⟩ | e | e | e | e
  · exact engine.exec_slaveOnly hx start e
  · rw [exec] at e
    refine engine.admitted start (fun u _ e => ?_) e
    obtain ⟨v, h1, h2⟩ := Res.bind_eq_next e
    cases h2
    exact engine.setRet _ (dispatched h1)
  · exact dispatched e
  · cases e
    exact engine.wake start
  · cases e
    exact engine.timeout_slave hr start

end Sys2Proof.Machine


namespace Sys2Proof.Machine

/-! ## What a slave's callback does (R440) -/

theorem State.drawCb_setBus (s : State) (i : BusId) (b : Bus) :
    (s.setBus i b).drawCb = (s.drawCb.1, s.drawCb.2.setBus i b) := by
  unfold State.drawCb
  rw [State.setBus_env]
  split <;> rfl

theorem State.drawCb_params (s : State) : s.drawCb.2.params = s.params := by
  unfold State.drawCb
  split <;> rfl

theorem State.drawCb_dma (s : State) : s.drawCb.2.dma = s.dma := by
  unfold State.drawCb
  split <;> rfl

theorem State.drawCb_load (s : State) (a : Word) : s.drawCb.2.load a = s.load a := by
  unfold State.drawCb
  split <;> rfl

theorem Bus.notify_slave {b : Bus} (hr : b.role = .slave) (i : BusId) (e : Event) : b.notify i e = b.called i b.s.cb e := by
  rw [Bus.notify, b.ctx_slave hr]
  rfl

/-- The draw of a callback that lends one buffer. -/
def lendDraw : Dir → Lend → CbDraw
  | .tx, l => .setTx l
  | .rx, l => .setRx l

theorem applyCb_lendDraw (i : BusId) (m : Bool) (d : Dir) (l : Lend) (s : State) :
    applyCb i m (lendDraw d l) s = callbackLend i m d l s := by
  cases d <;> rfl

/-- A good buffer is lent, where the channel is still or its transfer is over (U4, U11, R504). -/
theorem callbackLend_good {i : BusId} {m : Bool} {d : Dir} {l : Lend} {s : State} {b : Bus} (hl : goodLend s l)
    (hm : m = true ∨ channelStill i s b.s) :
    callbackLend i m d l (s.setBus i b) = .next (s.setBus i { b with s := b.s.lendSet d l.buf l.len }) := by
  obtain ⟨hpos, hmax, hfits⟩ := hl
  have hlen : (s.setBus i b).badLen l.len = false := by
    simp only [State.badLen, Bool.or_eq_false_iff, beq_eq_false_iff_ne, decide_eq_false_iff_not, BitVec.not_lt]
    exact ⟨hpos, hmax⟩
  have hend : pastEnd l.buf l.len = false := decide_eq_false (Nat.not_lt.mpr hfits)
  have hstill : (channelMoving i (s.setBus i b) && !m) = false := by
    rcases hm with rfl | h
    · exact Bool.and_false _
    · rw [channelMoving_eq_false (by rw [State.setBus_s]; exact h)]
      rfl
  rw [callbackLend, hlen, hend, slaveLend, hstill, State.modS_setBus]
  rfl

/-- A callback of the slave context `x` is unset, or it lends nothing or one good buffer: what it leaves of the state `s` and of
the context, and the record of the event (R440). -/
inductive CallbackAnswer (i : BusId) (e : Event) (s : State) (x : SCtx) : State → SCtx → List CbRecord → Prop where
  | unset (h : x.cb = .none) : CallbackAnswer i e s x s x []
  | nothing {user : Word} (h : x.cb = .some user) (hd : s.drawCb.1 = .nothing) :
    CallbackAnswer i e s x s.drawCb.2 x [⟨i, e, user⟩]
  | lends {user : Word} {d : Dir} {l : Lend} (h : x.cb = .some user) (hd : s.drawCb.1 = lendDraw d l) (hl : goodLend s l)
    (hm : e = .addressMatch ∨ channelStill i s x) :
    CallbackAnswer i e s x s.drawCb.2 (x.lendSet d l.buf l.len) [⟨i, e, user⟩]

theorem slaveCallback_unset {i : BusId} {e : Event} {s : State} {b : Bus} (hr : b.role = .slave) (h : b.s.cb = .none) :
    slaveCallback i e (s.setBus i b) = .next (s.setBus i b) := by
  simp only [slaveCallback, State.ctx_eq, State.setBus_bus_same, b.ctx_slave hr, h]

/-- An installed callback is told the event, then its draw is applied. -/
theorem slaveCallback_installed {i : BusId} {e : Event} {s : State} {b : Bus} (hr : b.role = .slave) {user : Word}
    (h : b.s.cb = .some user) :
    slaveCallback i e (s.setBus i b) =
      applyCb i (e == .addressMatch) s.drawCb.1
        (s.drawCb.2.setBus i { b with cbtrace := b.cbtrace ++ [⟨i, e, user⟩] }) := by
  simp only [slaveCallback, State.ctx_eq, State.setBus_bus_same, b.ctx_slave hr, h, State.notify_setBus,
    Bus.notify_slave hr, State.drawCb_setBus, Bus.called]

theorem CallbackAnswer.run {i : BusId} {e : Event} {s t : State} {b : Bus} {x : SCtx} {l : List CbRecord}
    (h : CallbackAnswer i e s b.s t x l) (hr : b.role = .slave) :
    slaveCallback i e (s.setBus i b) = .next (t.setBus i { b with s := x, cbtrace := b.cbtrace ++ l }) := by
  cases h with
  | unset h => rw [slaveCallback_unset hr h, List.append_nil]
  | nothing h hd => rw [slaveCallback_installed hr h, hd, applyCb]
  | @lends _ _ k h hd hl hm =>
    have hgood : goodLend s.drawCb.2 k := by rw [goodLend, State.drawCb_params]; exact hl
    have hfree : (e == .addressMatch) = true ∨ channelStill i s.drawCb.2 b.s := hm.imp beq_iff_eq.mpr fun hstill => by
      simpa only [channelStill, State.chan, State.drawCb_dma] using hstill
    rw [slaveCallback_installed hr h, hd, applyCb_lendDraw]
    exact callbackLend_good hgood hfree

/-- R305: the result is recorded, then the callback told. -/
theorem CallbackAnswer.recordError {i : BusId} {code : Result} {s t : State} {b : Bus} {x : SCtx} {l : List CbRecord}
    (h : CallbackAnswer i .error s { b.s with lastResult := code } t x l) (hr : b.role = .slave) :
    slaveRecordError i code (s.setBus i b) =
      .next (t.setBus i { b with s := x, phase := .data, cbtrace := b.cbtrace ++ l }) := by
  have hrun := h.run (b := { b with s := { b.s with lastResult := code }, phase := .error }) hr
  rw [slaveRecordError, State.setPhase_setBus, State.modSX_setBus]
  exact (congrArg (fun r => Res.bind r _) hrun).trans (congrArg _ (State.setPhase_setBus ..))

/-! ## The next byte to send (R291, R292) -/

theorem SCtx.advanceTx_eq {x : SCtx} {a : Word} (ha : x.txBuf = .some a) :
    x.modX (·.advanceTx 1) = { x with txBuf := .some (a + 1), txRemaining := x.txRemaining - 1 } := by
  rw [SCtx.modX, Xfer.advanceTx, ha]
  rfl

section TxNext

variable {i : BusId} {s t : State} {b : Bus} {x : SCtx} {l : List CbRecord} {a : Word}

/-- Once the callback has been asked where nothing is left, the byte sent is the next one buffered. -/
theorem slaveTxNext_buffered_of {r : State}
    (hask : (if b.s.txRemaining = 0 then slaveCallback i .txEmpty (s.setBus i b) else .next (s.setBus i b)) =
      .next (t.setBus i { b with s := x, cbtrace := b.cbtrace ++ l }))
    (hn : x.txRemaining ≠ 0) (ha : x.txBuf = .some a) (hr : r = t) :
    slaveTxNext i (s.setBus i b) =
      .next (r.setBus i
        { b with
          core := b.core.writeData (t.load a)
          s := { x with txBuf := .some (a + 1), txRemaining := x.txRemaining - 1 }
          cbtrace := b.cbtrace ++ l }) := by
  subst hr
  rw [slaveTxNext, State.setBus_s, hask, Res.bind_next, State.setBus_s, if_pos hn, slaveSendByte, State.modSX_setBus,
    State.modCore_setBus, State.setBus_s, ha, Bus.modS, SCtx.advanceTx_eq ha]
  rfl

theorem slaveTxNext_buffered (hn : b.s.txRemaining ≠ 0) (ha : b.s.txBuf = .some a) :
    slaveTxNext i (s.setBus i b) =
      .next (s.setBus i
        { b with
          core := b.core.writeData (s.load a)
          s := { b.s with txBuf := .some (a + 1), txRemaining := b.s.txRemaining - 1 } }) := by
  have h := slaveTxNext_buffered_of (i := i) (s := s) (t := s) (b := b) (x := b.s) (l := [])
    (by rw [if_neg hn, List.append_nil]) hn ha rfl
  rw [h, List.append_nil]

variable (h : CallbackAnswer i .txEmpty s b.s t x l) (hr : b.role = .slave) (hnone : b.s.txRemaining = 0)
include h hr hnone

/-- The callback lends a fresh send buffer. -/
theorem CallbackAnswer.txLent (hn : x.txRemaining ≠ 0) (ha : x.txBuf = .some a) :
    slaveTxNext i (s.setBus i b) =
      .next (t.setBus i
        { b with
          core := b.core.writeData (t.load a)
          s := { x with txBuf := .some (a + 1), txRemaining := x.txRemaining - 1 }
          cbtrace := b.cbtrace ++ l }) :=
  slaveTxNext_buffered_of (by rw [if_pos hnone, h.run hr]) hn ha rfl

/-- The callback lends no send buffer: TX_UNDERRUN, and SLAVE_FILL. -/
theorem CallbackAnswer.underrun (hn : x.txRemaining = 0) {u : State} {y : SCtx} {k : List CbRecord}
    (herr : CallbackAnswer i .error t { x with lastResult := .txUnderrun } u y k) :
    slaveTxNext i (s.setBus i b) =
      .next (u.setBus i
        { b with
          core := b.core.writeData u.params.slaveFill, s := y, phase := .data, cbtrace := b.cbtrace ++ l ++ k }) := by
  have hrec := herr.recordError (b := { b with s := x, cbtrace := b.cbtrace ++ l }) hr
  rw [slaveTxNext, State.setBus_s, if_pos hnone, h.run hr, Res.bind_next, State.setBus_s, if_neg (not_not_intro hn), hrec,
    Res.bind_next, State.modCore_setBus, State.setBus_params]
  rfl

end TxNext

/-! ## One dispatch of a byte event (R287, R297, R449) -/

theorem BusCore.dropMasterFlags_of_won {c : BusCore} (h : c.arblost = false) : c.dropMasterFlags = c := by
  rw [BusCore.dropMasterFlags, flag_kept (by rw [h]; rfl)]

theorem BusCore.byteEvent_of_pending {c : BusCore}
    (h : (c.bnd = true ∧ c.bndie = true) ∨ (c.rxnack = true ∧ c.nackie = true)) : c.byteEvent = true := by
  rcases h with ⟨h1, h2⟩ | ⟨h1, h2⟩ <;> simp [BusCore.byteEvent, h1, h2]

/-- Without a lost arbitration the handler serves the byte, the stop and the match. -/
theorem slaveHandler_won {i : BusId} {s : State} (h : (s.core i).arblost = false) :
    slaveHandler i s = ((slaveByteEvent i s).bind (slaveStopEvent i)).bind (slaveMatchEvent i) := by
  rw [slaveHandler, State.modCore_of_fixed (BusCore.dropMasterFlags_of_won h)]

theorem slaveStopEvent_none {i : BusId} {s : State} (h : (s.core i).stopf = false) : slaveStopEvent i s = .next s := by
  rw [slaveStopEvent, h, Bool.false_and, if_neg Bool.false_ne_true]

theorem slaveMatchEvent_none {i : BusId} {s : State} (h : (s.core i).addrmatch = false) : slaveMatchEvent i s = .next s := by
  rw [slaveMatchEvent, h, Bool.false_and, Bool.false_and, if_neg Bool.false_ne_true]

/-- A slave with a pending byte event, and no event of its channel and no lost arbitration to serve (R287, R446). -/
structure ByteAlone (i : BusId) (s : State) : Prop where
  role : (s.bus i).role = .slave
  pending : ((s.core i).bnd = true ∧ (s.core i).bndie = true) ∨ ((s.core i).rxnack = true ∧ (s.core i).nackie = true)
  won : (s.core i).arblost = false
  dma : noDmaEvent i s

theorem ByteAlone.dispatch {i : BusId} {s : State} (h : ByteAlone i s) :
    runInput (.dispatch i) s = ((slaveByteEvent i s).bind (slaveStopEvent i)).bind (slaveMatchEvent i) := by
  have hirq : (s.core i).irq = true := BusCore.irq_of_pending (h.pending.imp_right .inl)
  rw [h.dma.dispatch_slave h.role, hirq, if_pos rfl, slaveHandler_won h.won]

/-- With no stop and no match pending the dispatch serves the byte only. -/
theorem ByteAlone.served {i : BusId} {s t : State} {b : Bus} (h : ByteAlone i s)
    (ht : slaveByteEvent i s = .next (t.setBus i b)) (hs : b.core.stopf = false) (hm : b.core.addrmatch = false) :
    runInput (.dispatch i) s = .next (t.setBus i b) := by
  rw [h.dispatch, ht, Res.bind_next, slaveStopEvent_none (by rw [State.setBus_core]; exact hs), Res.bind_next,
    slaveMatchEvent_none (by rw [State.setBus_core]; exact hm)]

theorem SlaveByteEvent.byteAlone {i : BusId} {s : State} (h : SlaveByteEvent i s) : ByteAlone i s :=
  ⟨h.role, .inl ⟨h.bnd, h.bndie⟩, h.won, h.dma⟩

/-- The byte of a transfer in progress that was not refused goes by the direction of the transfer. -/
theorem SlaveByteEvent.slaveByteEvent_eq {i : BusId} {s : State} (h : SlaveByteEvent i s) :
    slaveByteEvent i s = if (s.s i).curDir = .tx then slaveTxNext i s else slaveRecvByte i s := by
  simp only [slaveByteEvent, BusCore.byteEvent_of_pending h.byteAlone.pending, h.open_, h.acked]
  cases (s.s i).curDir <;> rfl

theorem BusCore.readData_clearRxnack (c : BusCore) :
    c.readData.clearFlag .rxnack =
      { c with
        bnd := false, rxnack := false
        pend := if c.moden = true ∧ c.mstr = true ∧ c.owner = true ∧ c.dir = .rx then .rxByte else c.pend } := by
  rw [c.readData_eq]
  rfl

/-- The acknowledge of the next byte, by the room left for it (R295). -/
theorem nextAck_eq {n : Word} (h : n ≠ 0) : (if 1 < n then Ack.ack else .nack) = if n = 1 then .nack else .ack := by
  by_cases hn : n = 1
  · rw [if_pos hn, hn, if_neg (by decide)]
  · rw [if_neg hn, if_pos (by bv_omega)]

/-- With room the byte is stored and the next one allowed. -/
theorem slaveRecvByte_room {i : BusId} {s : State} {a : Word} (hn : (s.s i).rxRemaining ≠ 0)
    (ha : (s.s i).rxBuf = .some a) :
    slaveRecvByte i s =
      .next ((s.store (a + (s.s i).rxCursor) (s.core i).data).setBus i
        { s.bus i with
          core := ((s.core i).setAck (if 1 < (s.s i).rxRemaining then .ack else .nack)).readData
          s := (s.s i).modX (·.advanceRx 1) }) := by
  rw [slaveRecvByte, if_pos hn, ha]
  exact congrArg _ (State.modCore_setBus ..)

/-- With no room it is read and discarded, and RX_OVERRUN recorded. -/
theorem CallbackAnswer.overrun {i : BusId} {s t : State} {x : SCtx} {l : List CbRecord}
    (h : CallbackAnswer i .error s { s.s i with lastResult := .rxOverrun } t x l) (hr : (s.bus i).role = .slave)
    (hn : (s.s i).rxRemaining = 0) :
    slaveRecvByte i s =
      .next (t.setBus i
        { s.bus i with
          core := (s.core i).readData, s := x, phase := .data, cbtrace := (s.bus i).cbtrace ++ l }) := by
  rw [slaveRecvByte, if_neg (not_not_intro hn), State.modCore_eq]
  exact h.recordError (b := { s.bus i with core := (s.core i).readData }) hr

/-- Settles O52: the byte event by what is in progress, then by the room left. -/
theorem slaveReceiveByteEvent : Obligations.SlaveReceiveByteEvent := by
  unfold Obligations.SlaveReceiveByteEvent
  refine ⟨fun i s hr hnone hp hwon hs hm hdma => ?spurious, fun i s h hdir => ⟨_, rfl, fun a ha hn => ?room, fun hn =>
    ⟨fun hcb => ?overrun, fun user hcb hd => ?told⟩⟩⟩
  case spurious =>
    have hbyte : slaveByteEvent i s = .next (slaveSpurious i s) := by
      rw [slaveByteEvent, BusCore.byteEvent_of_pending hp, if_pos rfl, if_pos hnone]
    rw [slaveSpurious, State.modCore_eq, BusCore.readData_clearRxnack] at hbyte
    exact ByteAlone.served ⟨hr, hp, hwon, hdma⟩ hbyte hs hm
  all_goals
    have hbyte : slaveByteEvent i s = slaveRecvByte i s := by
      rw [h.slaveByteEvent_eq, hdir]
      rfl
  case room =>
    rw [slaveRecvByte_room hn ha, nextAck_eq hn, BusCore.readData_eq] at hbyte
    exact h.byteAlone.served hbyte h.noStop h.noMatch
  case overrun =>
    rw [CallbackAnswer.overrun (.unset hcb) h.role hn, BusCore.readData_eq, List.append_nil] at hbyte
    exact h.byteAlone.served hbyte h.noStop h.noMatch
  case told =>
    rw [CallbackAnswer.overrun (.nothing hcb hd) h.role hn, BusCore.readData_eq] at hbyte
    exact h.byteAlone.served hbyte h.noStop h.noMatch

/-- Settles O53: a refused byte, the next buffered one, and none buffered, by what the callback draws. -/
theorem slaveTransmitByteEvent : Obligations.SlaveTransmitByteEvent := by
  unfold Obligations.SlaveTransmitByteEvent
  refine ⟨fun i s hr hopen hnack hp hwon hs hm hdma => ?refused, fun i s h hdir => ⟨_, (s.core i).writeData_eq,
    fun a ha hn => ?buffered, fun hnone => ⟨fun hcb => ?unset, fun user hcb hd hd2 => ?nothing,
    fun user l hcb hd hl hstill => ⟨(s.s i).lendSet .tx l.buf l.len, ?lent⟩⟩⟩⟩
  case refused =>
    have hp' : ((s.core i).bnd = true ∧ (s.core i).bndie = true) ∨ ((s.core i).rxnack = true ∧ (s.core i).nackie = true) :=
      hp.symm.imp_right fun hie => ⟨hnack, hie⟩
    have hbyte : slaveByteEvent i s = .next (slaveNack i s) := by
      rw [slaveByteEvent, BusCore.byteEvent_of_pending hp', if_pos rfl, hopen, if_neg Bool.noConfusion, if_pos hnack]
    exact ByteAlone.served ⟨hr, hp', hwon, hdma⟩ hbyte hs hm
  all_goals
    have hbyte : slaveByteEvent i s = slaveTxNext i (s.setBus i (s.bus i)) := by
      rw [h.slaveByteEvent_eq, if_pos hdir, State.setBus_self]
  case buffered =>
    rw [slaveTxNext_buffered hn ha] at hbyte
    exact h.byteAlone.served hbyte h.noStop h.noMatch
  case unset =>
    rw [CallbackAnswer.underrun (.unset hcb) h.role hnone hnone (.unset hcb), List.append_nil, List.append_nil] at hbyte
    exact h.byteAlone.served hbyte h.noStop h.noMatch
  case nothing =>
    rw [CallbackAnswer.underrun (.nothing hcb hd) h.role hnone hnone (.nothing hcb hd2), List.append_assoc,
      State.drawCb_params, State.drawCb_params] at hbyte
    exact h.byteAlone.served hbyte h.noStop h.noMatch
  case lent =>
    have hbyte := hbyte.trans
      (CallbackAnswer.txLent (.lends (d := .tx) hcb hd hl (.inr hstill)) h.role hnone hl.1 rfl)
    rw [State.drawCb_load] at hbyte
    exact h.byteAlone.served hbyte h.noStop h.noMatch

end Sys2Proof.Machine


namespace Sys2Proof.Machine

/-! ## The channel settled and stopped (R359, R366) -/

/-- What is settled of a context: the counts and the note of the part the channel was configured for. -/
theorem SCtx.settled_eq (x : SCtx) (left : Word) :
    x.settled left =
      { x with
        txBuf := (x.settled left).txBuf, txRemaining := (x.settled left).txRemaining
        rxCursor := (x.settled left).rxCursor, rxRemaining := (x.settled left).rxRemaining
        unsettled := (x.settled left).unsettled } := by
  unfold SCtx.settled
  split
  · rfl
  · split <;> rfl
  · split <;> rfl

theorem SCtx.settled_cb (x : SCtx) (left : Word) : (x.settled left).cb = x.cb := by
  rw [x.settled_eq left]

theorem BusCore.dmareqOff_bndie (c : BusCore) :
    c.dmareqOff.setEnable .bndie true = { c with dmatxen := false, dmarxen := false, bndie := true } := by
  simp only [BusCore.dmareqOff, BusCore.setDmareq, BusCore.setEnable]

/-- A draw reads and writes the environment alone. -/
theorem State.drawCb_of_env {s t : State} (h : t.env = s.env) :
    t.drawCb = (s.drawCb.1, { t with env := s.drawCb.2.env }) := by
  unfold State.drawCb
  rw [h]
  split <;> rfl

section Settle

variable (i : BusId) (c : Chan) (s : State) (b : Bus)

theorem State.channelReleased_setBus : (s.setBus i b).channelReleased i c = (s.channelReleased i c).setBus i b := by
  unfold State.channelReleased
  rw [State.setBus_chan]
  split <;> rfl

theorem State.channelReleased_dmatrace : (s.channelReleased i c).dmatrace = s.dmatrace := by
  unfold State.channelReleased
  split <;> rfl

theorem State.channelReleased_env : (s.channelReleased i c).env = s.env := by
  unfold State.channelReleased
  split <;> rfl

theorem slaveDmaSettle_setBus :
    slaveDmaSettle i (s.setBus i b) =
      (s.channelReleased i b.s.dmaChannel).setBus i { b with s := s.settledCounts i b.s.dmaChannel b.s } := by
  rw [slaveDmaSettle_eq, State.setBus_s, State.setBus_chan, State.settledCounts]
  by_cases ho : (s.chan b.s.dmaChannel).owner = .some i
  · rw [if_pos ho, if_pos ho, State.modS_setBus, State.channelReleased_setBus]
    rfl
  · rw [if_neg ho, if_neg ho, State.channelReleased, if_neg ho]

theorem dmaStop_channelReleased : dmaStop c (s.channelReleased i c) = s.channelSettledStopped i c := by
  rw [dmaStop, State.logDma, State.channelSettledStopped, ← State.channelReleased_dmatrace i c s]
  rfl

theorem dmaStop_slaveDmaSettle :
    dmaStop b.s.dmaChannel (slaveDmaSettle i (s.setBus i b)) =
      (s.channelSettledStopped i b.s.dmaChannel).setBus i { b with s := s.settledCounts i b.s.dmaChannel b.s } := by
  rw [slaveDmaSettle_setBus, ← dmaStop_channelReleased]
  rfl

theorem State.channelSettledStopped_withEnv (e : Env) :
    { s with env := e }.channelSettledStopped i c = { s.channelSettledStopped i c with env := e } := by
  unfold State.channelSettledStopped State.channelReleased
  by_cases ho : (s.chan c).owner = .some i
  · rw [if_pos ho, if_pos (by exact ho)]
    rfl
  · rw [if_neg ho, if_neg (by exact ho)]
    rfl

/-- Settling and stopping a channel draws nothing. -/
theorem State.drawCb_channelSettledStopped :
    (s.channelSettledStopped i c).drawCb = (s.drawCb.1, s.drawCb.2.channelSettledStopped i c) := by
  have henv : (s.channelSettledStopped i c).env = s.env := State.channelReleased_env i c s
  have hnext : s.drawCb.2 = { s with env := s.drawCb.2.env } := congrArg Prod.snd (State.drawCb_of_env rfl)
  calc (s.channelSettledStopped i c).drawCb
      = (s.drawCb.1, { s.channelSettledStopped i c with env := s.drawCb.2.env }) := State.drawCb_of_env henv
    _ = (s.drawCb.1, { s with env := s.drawCb.2.env }.channelSettledStopped i c) :=
      congrArg (Prod.mk _) (State.channelSettledStopped_withEnv i c s _).symm
    _ = (s.drawCb.1, s.drawCb.2.channelSettledStopped i c) := by rw [← hnext]

end Settle

/-! ## Events of the channel (R360, R361, R365, R446) -/

theorem dmaErrPending_eq {i : BusId} {s : State} (ho : (s.chan (s.ctx i).dmaChannel).owner = .some i) :
    dmaErrPending i s = (s.chan (s.ctx i).dmaChannel).err := by
  rw [dmaErrPending, boundChan, if_pos ho]

theorem dmaDonePending_eq {i : BusId} {s : State} (ho : (s.chan (s.ctx i).dmaChannel).owner = .some i) :
    dmaDonePending i s = (s.chan (s.ctx i).dmaChannel).done := by
  rw [dmaDonePending, boundChan, if_pos ho]

/-- The event a channel has pending is taken off it before the rest is settled and stopped. -/
theorem State.channelSettledStopped_errTaken (i : BusId) (c : Chan) (s : State) :
    (s.modChan c fun d => { d with err := false }).channelSettledStopped i c = s.channelSettledStopped i c := by
  unfold State.channelSettledStopped State.channelReleased
  rw [State.modChan_chan_same, State.modChan]
  by_cases ho : (s.chan c).owner = .some i
  · simp [ho, State.setChan_chan]
  · simp [ho, State.setChan_chan]

/-- The same for the completed part of a channel that is settled only. -/
theorem State.channelReleased_doneTaken {i : BusId} {c : Chan} {s : State} (ho : (s.chan c).owner = .some i) :
    (s.modChan c fun d => { d with done := false }).channelReleased i c =
      s.setChan c { s.chan c with done := false, remaining := 0, owner := .none } := by
  rw [State.channelReleased, State.modChan_chan_same, if_pos (by exact ho), State.modChan, State.setChan_setChan]

section Done

variable {i : BusId} {s : State}

theorem masterDmaDone_idle (c : Chan) (hidle : (s.m i).idle = true) :
    masterDmaDone i c s = s.setChan c { s.chan c with done := false } := if_pos hidle

/-- A completed part of a master in flight. -/
theorem masterDmaDone_busy (c : Chan) (hidle : (s.m i).idle = false) :
    masterDmaDone i c s =
      (s.setChan c { s.chan c with done := false }).setBus i
        { s.bus i with
          core := { s.core i with dmatxen := false, dmarxen := false, bndie := true }
          m := (s.m i).modX (·.dmaSettled) } := by
  rw [← BusCore.dmareqOff_bndie]
  have hoff (t : State) : t.modCore i .dmareqOff = t.setBus i ((t.bus i).modCore .dmareqOff) := rfl
  refine (if_neg (ne_true_of_eq_false hidle)).trans ?_
  rw [hoff, State.modMX_setBus, State.modCore_setBus]
  rfl

/-- A completed part of a slave's data phase. -/
theorem slaveDmaDone_eq (ho : (s.chan (s.s i).dmaChannel).owner = .some i) :
    slaveDmaDone i (s.s i).dmaChannel s =
      (s.setChan (s.s i).dmaChannel { s.chan (s.s i).dmaChannel with done := false, remaining := 0, owner := .none }).setBus i
        { s.bus i with
          core := { s.core i with dmatxen := false, dmarxen := false, bndie := true }
          s := (s.s i).settled (s.chan (s.s i).dmaChannel).remaining } := by
  have hsettle := slaveDmaSettle_setBus i (s.modChan (s.s i).dmaChannel fun d => { d with done := false }) (s.bus i)
  have hcounts : (s.modChan (s.s i).dmaChannel fun d => { d with done := false }).settledCounts i (s.s i).dmaChannel (s.s i) =
      (s.s i).settled (s.chan (s.s i).dmaChannel).remaining := by
    rw [State.settledCounts, State.modChan_chan_same, if_pos (by exact ho)]
  rw [← State.modChan_bus s _ (fun d => { d with done := false }) i, State.setBus_self, State.modChan_bus, ← State.s_eq,
    State.channelReleased_doneTaken ho, hcounts] at hsettle
  rw [slaveDmaDone, hsettle, State.modCore_setBus, ← BusCore.dmareqOff_bndie]
  rfl

/-- R446 for a slave: an event of its channel is taken before anything else, an error before a completion. -/
theorem dispatch_slave_err (hr : (s.bus i).role = .slave) (ho : (s.chan (s.s i).dmaChannel).owner = .some i)
    (he : (s.chan (s.s i).dmaChannel).err = true) :
    runInput (.dispatch i) s = slaveDmaError i (s.s i).dmaChannel s := by
  have hctx : s.ctx i = (s.s i).toXfer := (s.bus i).ctx_slave hr
  have herr : dmaErrPending i s = true := by rw [dmaErrPending_eq (by rw [hctx]; exact ho), hctx, he]
  simp [runInput, dispatch, dispatchEnabled, slaveDispatch, hr, herr]

theorem dispatch_slave_done (hr : (s.bus i).role = .slave) (ho : (s.chan (s.s i).dmaChannel).owner = .some i)
    (he : (s.chan (s.s i).dmaChannel).err = false) (hd : (s.chan (s.s i).dmaChannel).done = true) :
    runInput (.dispatch i) s = .next (slaveDmaDone i (s.s i).dmaChannel s) := by
  have hctx : s.ctx i = (s.s i).toXfer := (s.bus i).ctx_slave hr
  have herr : dmaErrPending i s = false := by rw [dmaErrPending_eq (by rw [hctx]; exact ho), hctx, he]
  have hdone : dmaDonePending i s = true := by rw [dmaDonePending_eq (by rw [hctx]; exact ho), hctx, hd]
  simp [runInput, dispatch, dispatchEnabled, slaveDispatch, hr, herr, hdone]

theorem dispatch_master_done (hr : (s.bus i).role = .master) (ho : (s.chan (s.m i).dmaChannel).owner = .some i)
    (he : (s.chan (s.m i).dmaChannel).err = false) (hd : (s.chan (s.m i).dmaChannel).done = true) :
    runInput (.dispatch i) s = .next (masterDmaDone i (s.m i).dmaChannel s) := by
  have hctx : s.ctx i = (s.m i).toXfer := (s.bus i).ctx_master hr
  have herr : dmaErrPending i s = false := by rw [dmaErrPending_eq (by rw [hctx]; exact ho), hctx, he]
  have hdone : dmaDonePending i s = true := by rw [dmaDonePending_eq (by rw [hctx]; exact ho), hctx, hd]
  simp [runInput, dispatch, dispatchEnabled, masterDispatch, hr, herr, hdone]

/-- The counts of a master whose part the channel has moved (R360). -/
theorem MCtx.dmaSettled_eq (m : MCtx) :
    m.modX (·.dmaSettled) =
      if m.txBuf.isSome then { m with txBuf := m.txBuf.map (· + m.txRemaining), txRemaining := 0 }
      else { m with rxCursor := m.rxCursor + (m.rxRemaining - 2), rxRemaining := 2 } := by
  have hrx : m.rxRemaining - (m.rxRemaining - 2) = 2 := by bv_omega
  rw [MCtx.modX, Xfer.dmaSettled]
  split
  · rw [Xfer.advanceTx, BitVec.sub_self]
    rfl
  · rw [Xfer.advanceRx, hrx]

/-- The error of a slave's channel: settled and stopped, then recorded, by what the callback draws. -/
theorem CallbackAnswer.dmaError {t : State} {x : SCtx} {l : List CbRecord}
    (h : CallbackAnswer i .error (s.channelSettledStopped i (s.s i).dmaChannel)
      { (s.s i).settled (s.chan (s.s i).dmaChannel).remaining with lastResult := .error } t x l)
    (hr : (s.bus i).role = .slave) (ho : (s.chan (s.s i).dmaChannel).owner = .some i) :
    slaveDmaError i (s.s i).dmaChannel s =
      .next (t.setBus i
        { s.bus i with
          core := { s.core i with dmatxen := false, dmarxen := false, bndie := true }, s := x, phase := .data
          cbtrace := (s.bus i).cbtrace ++ l }) := by
  have hstop := dmaStop_slaveDmaSettle i (s.modChan (s.s i).dmaChannel fun d => { d with err := false }) (s.bus i)
  have hcounts : (s.modChan (s.s i).dmaChannel fun d => { d with err := false }).settledCounts i (s.s i).dmaChannel (s.s i) =
      (s.s i).settled (s.chan (s.s i).dmaChannel).remaining := by
    rw [State.settledCounts, State.modChan_chan_same, if_pos (by exact ho)]
  rw [← State.modChan_bus s _ (fun d => { d with err := false }) i, State.setBus_self, State.modChan_bus, ← State.s_eq,
    State.channelSettledStopped_errTaken, hcounts] at hstop
  rw [slaveDmaError, hstop, State.modCore_setBus, ← BusCore.dmareqOff_bndie]
  exact h.recordError (b := { s.bus i with
    core := (s.core i).dmareqOff.setEnable .bndie true
    s := (s.s i).settled (s.chan (s.s i).dmaChannel).remaining }) hr

end Done

/-- Settles O58: the event by the role, an error by what the callback draws. -/
theorem dmaCompletionSettlesCounts : Obligations.DmaCompletionSettlesCounts := by
  unfold Obligations.DmaCompletionSettlesCounts
  refine ⟨fun i s ho hd he => ⟨fun hr hidle => ?idle, fun hr hidle => ?busy, fun hr => ?slave⟩, fun i s hr ho he =>
    ⟨fun hcb => ?unset, fun user hcb hd => ?told⟩⟩
  case idle =>
    have hctx : s.ctx i = (s.m i).toXfer := (s.bus i).ctx_master hr
    rw [hctx] at ho hd he
    rw [dispatch_master_done hr ho he hd, masterDmaDone_idle _ hidle]
  case busy =>
    have hctx : s.ctx i = (s.m i).toXfer := (s.bus i).ctx_master hr
    rw [hctx] at ho hd he
    rw [dispatch_master_done hr ho he hd, masterDmaDone_busy _ hidle, MCtx.dmaSettled_eq]
  case slave =>
    have hctx : s.ctx i = (s.s i).toXfer := (s.bus i).ctx_slave hr
    rw [hctx] at ho hd he
    rw [dispatch_slave_done hr ho he hd, slaveDmaDone_eq ho]
  case unset =>
    rw [dispatch_slave_err hr ho he, CallbackAnswer.dmaError (.unset ((SCtx.settled_cb _ _).trans hcb)) hr ho,
      List.append_nil]
  case told =>
    have hdraw := State.drawCb_channelSettledStopped i (s.s i).dmaChannel s
    have hrun := CallbackAnswer.dmaError (.nothing ((SCtx.settled_cb _ _).trans hcb) (by rw [hdraw]; exact hd)) hr ho
    rw [dispatch_slave_err hr ho he, hrun, hdraw]


end Sys2Proof.Machine


namespace Sys2Proof.Machine

/-! ## What the callback of an address match leaves (R288, R440) -/

/-- A callback that is unset or draws nothing or one good buffer answers an address match. -/
theorem calledQuietly.answer {i : BusId} {s : State} (h : calledQuietly i s) {x : SCtx} (hcb : x.cb = (s.s i).cb) :
    ∃ r y l, CallbackAnswer i .addressMatch s x r y l := by
  cases hx : x.cb with
  | none => exact ⟨_, _, _, .unset hx⟩
  | some user =>
    rcases h with h | h | ⟨t, ht, h | h⟩
    · rw [← hcb, hx] at h
      cases h
    · exact ⟨_, _, _, .nothing hx h⟩
    · exact ⟨_, _, _, .lends (d := .tx) hx h ht (.inl rfl)⟩
    · exact ⟨_, _, _, .lends (d := .rx) hx h ht (.inl rfl)⟩

section Answer

variable {i : BusId} {e : Event} {s r : State} {x y : SCtx} {l : List CbRecord} (h : CallbackAnswer i e s x r y l)
include h

theorem CallbackAnswer.called (hcb : x.cb = (s.s i).cb) : slaveCalled i e s x r y l := by
  cases h with
  | unset hx => exact .inl ⟨hcb.symm.trans hx, rfl, rfl, rfl⟩
  | nothing hx hd => exact .inr ⟨_, hcb.symm.trans hx, rfl, rfl, .inl ⟨hd, rfl⟩⟩
  | @lends _ d k hx hd =>
    refine .inr ⟨_, hcb.symm.trans hx, rfl, rfl, .inr ?_⟩
    cases d with
    | tx => exact .inl ⟨k, x.lendSet .tx k.buf k.len, hd, rfl⟩
    | rx => exact .inr ⟨k, x.lendSet .rx k.buf k.len, hd, rfl⟩

theorem CallbackAnswer.dma : r.dma = s.dma := by
  cases h with
  | unset => rfl
  | nothing => exact s.drawCb_dma
  | lends => exact s.drawCb_dma

theorem CallbackAnswer.params : r.params = s.params := by
  cases h with
  | unset => rfl
  | nothing => exact s.drawCb_params
  | lends => exact s.drawCb_params

theorem CallbackAnswer.load (a : Word) : r.load a = s.load a := by
  cases h with
  | unset => rfl
  | nothing => exact s.drawCb_load a
  | lends => exact s.drawCb_load a

/-- Lending leaves the configuration and the direction of the transfer alone. -/
theorem CallbackAnswer.config :
    y.transport = x.transport ∧ y.dmaChannel = x.dmaChannel ∧ y.cb = x.cb := by
  cases h with
  | unset => exact ⟨rfl, rfl, rfl⟩
  | nothing => exact ⟨rfl, rfl, rfl⟩
  | lends => exact ⟨SCtx.lendSet_transport .., SCtx.lendSet_dmaChannel .., SCtx.lendSet_cb ..⟩

theorem CallbackAnswer.silent (hcb : x.cb = .none) : l = [] := by
  cases h with
  | unset => rfl
  | nothing hx => rw [hcb] at hx; cases hx
  | lends hx => rw [hcb] at hx; cases hx

end Answer

/-! ## The channel of a slave at an address match (R364) -/

/-- A channel found armed, settled and stopped. -/
def State.restarted (s : State) (i : BusId) (c : Chan) (armed : Bool) : State :=
  if armed then s.channelSettledStopped i c else s

/-- The core then: requests off, BNDIE on (R350, R354). -/
def BusCore.restarted (k : BusCore) (armed : Bool) : BusCore :=
  { k with bndie := armed || k.bndie, dmatxen := !armed && k.dmatxen, dmarxen := !armed && k.dmarxen }

/-- The context then, with `left` bytes to go. -/
def SCtx.restarted (x : SCtx) (armed : Bool) (left : Word) : SCtx := if armed then x.settled left else x

theorem SCtx.restarted_config (x : SCtx) (armed : Bool) (left : Word) :
    (x.restarted armed left).curDir = x.curDir ∧ (x.restarted armed left).dmaChannel = x.dmaChannel ∧
      (x.restarted armed left).cb = x.cb := by
  cases armed with
  | false => exact ⟨rfl, rfl, rfl⟩
  | true =>
    rw [SCtx.restarted, if_pos rfl, x.settled_eq left]
    exact ⟨rfl, rfl, rfl⟩

theorem State.drawCb_restarted (s : State) (i : BusId) (c : Chan) (armed : Bool) :
    (s.restarted i c armed).drawCb = (s.drawCb.1, s.drawCb.2.restarted i c armed) := by
  cases armed with
  | false => rfl
  | true => exact State.drawCb_channelSettledStopped i c s

theorem State.restarted_params (s : State) (i : BusId) (c : Chan) (armed : Bool) :
    (s.restarted i c armed).params = s.params := by
  cases armed with
  | false => rfl
  | true =>
    show (s.channelReleased i c).params = s.params
    unfold State.channelReleased
    split <;> rfl

theorem State.restarted_load (s : State) (i : BusId) (c : Chan) (armed : Bool) (a : Word) :
    (s.restarted i c armed).load a = s.load a := by
  cases armed with
  | false => rfl
  | true =>
    show (s.channelReleased i c).load a = s.load a
    unfold State.channelReleased
    split <;> rfl

theorem slaveDmaRestart_setBus (i : BusId) (r : State) (b : Bus) {armed : Bool}
    (h : armed = ((r.chan b.s.dmaChannel).owner == .some i)) :
    slaveDmaRestart i (r.setBus i b) =
      (r.restarted i b.s.dmaChannel armed).setBus i
        { b with
          core := b.core.restarted armed
          s := b.s.restarted armed (r.chan b.s.dmaChannel).remaining } := by
  rw [slaveDmaRestart, State.setBus_s, State.setBus_chan]
  by_cases ho : (r.chan b.s.dmaChannel).owner = .some i
  · have harmed : armed = true := h.trans (beq_iff_eq.mpr ho)
    rw [if_pos ho, harmed, dmaStop_slaveDmaSettle, State.modCore_setBus, State.settledCounts, if_pos ho, Bus.modCore,
      BusCore.dmareqOff_bndie]
    rfl
  · have harmed : armed = false := h.trans (beq_eq_false_iff_ne.mpr ho)
    rw [if_neg ho, harmed]
    rfl

theorem BusCore.bulkArmed_eq (k : BusCore) (d : Dir) (bulk : Bool) :
    k.bulkArmed d bulk =
      { k with
        bndie := !bulk && k.bndie, dmatxen := bulk && d == .tx || k.dmatxen, dmarxen := bulk && d == .rx || k.dmarxen } := by
  cases bulk with
  | false => rfl
  | true => cases d <;> rfl

/-- The part the channel takes, when `bulk` says so, on a state whose bus is `b`. -/
theorem slaveBulkIf_setBus (q : Prop) [Decidable q] (i : BusId) (x y : Endpoint) (n : Word) (m : DmaDir) (d : Dir)
    (s : State) (b : Bus) {bulk : Bool} (h : bulk = decide q) :
    (if q then slaveDmaBulk i x y n m d (s.setBus i b) else s.setBus i b) =
      (s.channelStarted bulk b.s.dmaChannel x y n m i).setBus i
        { b with
          core := b.core.bulkArmed d bulk
          s := { b.s with unsettled := if bulk then .some d else b.s.unsettled } } := by
  have hbulk := bulkIf_setBus q i b.s.dmaChannel x y n m d s b
  rw [← h] at hbulk
  by_cases hq : q
  · rw [h, decide_eq_true hq] at hbulk ⊢
    rw [if_pos hq] at hbulk ⊢
    rw [slaveDmaBulk, State.setBus_s, hbulk, State.modS_setBus]
    rfl
  · rw [if_neg hq] at hbulk ⊢
    rw [hbulk, h, decide_eq_false hq]
    rfl

end Sys2Proof.Machine


namespace Sys2Proof.Machine

/-! ## The data phase an address match opens (R288, R291, R364) -/

/-- What follows the callback, by the transport. -/
def slaveOpen (dma : Bool) (i : BusId) (s : State) : Res := if dma then slaveDmaArm i s else slaveBegin i s

theorem BusCore.opened_tx (k : BusCore) (armed bulk : Bool) (v : Byte) :
    (((k.restarted armed).setDir .tx).bulkArmed .tx bulk).writeData v =
      { k with
        dir := .tx, data := v, bnd := false, bndie := !bulk && (armed || k.bndie)
        dmatxen := bulk || !armed && k.dmatxen, dmarxen := !armed && k.dmarxen
        pend :=
          if k.moden = true ∧ (k.owner = true ∨ (k.sel = true ∧ k.srw = true)) then .txByte v else k.pend } := by
  rw [BusCore.writeData_eq, BusCore.bulkArmed_eq]
  simp [BusCore.setDir, BusCore.restarted]

theorem BusCore.opened_rx (k : BusCore) (armed bulk : Bool) (a : Ack) :
    (((k.restarted armed).setDir .rx).setAck a).bulkArmed .rx bulk =
      { k with
        dir := .rx, acksel := a, bndie := !bulk && (armed || k.bndie), dmatxen := !armed && k.dmatxen
        dmarxen := bulk || !armed && k.dmarxen } := by
  rw [BusCore.bulkArmed_eq]
  simp [BusCore.setDir, BusCore.setAck, BusCore.restarted]

/-- The context once the channel has been configured for the part `d`, when `bulk` says so. -/
def SCtx.configured (x : SCtx) (d : Dir) (bulk : Bool) : SCtx :=
  { x with unsettled := if bulk then .some d else x.unsettled }

/-- The bus of a transfer that reads, its direction set and the channel armed, before its first byte. -/
def Bus.reading (b : Bus) (y : SCtx) (armed bulk : Bool) : Bus :=
  { b with core := ((b.core.restarted armed).setDir .tx).bulkArmed .tx bulk, s := y.configured .tx bulk }

section Open

variable {i : BusId} {r : State} {b : Bus} {dma armed bulk : Bool} {y : SCtx}
  (harmed : armed = (dma && (r.chan b.s.dmaChannel).owner == .some i))
  (hy : b.s.restarted armed (r.chan b.s.dmaChannel).remaining = y)
include harmed hy

/-- The tail of an address match, reading. -/
theorem slaveOpen_tx (hdir : b.s.curDir = .tx) (hbulk : bulk = (dma && decide (2 ≤ y.txRemaining))) :
    slaveOpen dma i (r.setBus i b) =
      slaveTxNext i
        (((r.restarted i b.s.dmaChannel armed).channelStarted bulk b.s.dmaChannel (.mem (bufAddr y.txBuf + 1)) (.data i)
            (y.txRemaining - 1) .mem2dev i).setBus i
          (b.reading y armed bulk)) := by
  obtain ⟨hcur, hchan, -⟩ := b.s.restarted_config armed (r.chan b.s.dmaChannel).remaining
  rw [hy] at hcur hchan
  cases dma with
  | false =>
    subst hbulk harmed hy
    rw [slaveOpen, if_neg Bool.false_ne_true, slaveBegin, State.setBus_s, hdir]
    exact congrArg (slaveTxNext i) (State.modCore_setBus ..)
  | true =>
    rw [Bool.true_and] at harmed hbulk
    rw [slaveOpen, if_pos rfl, slaveDmaArm, slaveDmaRestart_setBus i r b harmed, hy]
    simp only [State.setBus_s]
    rw [hcur.trans hdir]
    simp only [State.modCore_setBus, slaveBulkIf_setBus _ _ _ _ _ _ _ _ _ hbulk, Bus.modCore, hchan]
    rfl

/-- The tail of an address match, writing. -/
theorem slaveOpen_rx (hdir : b.s.curDir = .rx) (hbulk : bulk = (dma && decide (2 ≤ y.rxRemaining))) :
    slaveOpen dma i (r.setBus i b) =
      .next
        (((r.restarted i b.s.dmaChannel armed).channelStarted bulk b.s.dmaChannel (.data i)
            (.mem (bufAddr y.rxBuf + y.rxCursor)) (y.rxRemaining - 1) .dev2mem i).setBus i
          { b with
            core :=
              (((b.core.restarted armed).setDir .rx).setAck (if y.rxRemaining ≠ 0 then .ack else .nack)).bulkArmed .rx bulk
            s := y.configured .rx bulk }) := by
  obtain ⟨hcur, hchan, -⟩ := b.s.restarted_config armed (r.chan b.s.dmaChannel).remaining
  rw [hy] at hcur hchan
  cases dma with
  | false =>
    subst hbulk harmed hy
    rw [slaveOpen, if_neg Bool.false_ne_true, slaveBegin, State.setBus_s, hdir]
    exact congrArg _ (State.modCore_setBus ..)
  | true =>
    rw [Bool.true_and] at harmed hbulk
    rw [slaveOpen, if_pos rfl, slaveDmaArm, slaveDmaRestart_setBus i r b harmed, hy]
    simp only [State.setBus_s]
    rw [hcur.trans hdir]
    simp only [State.modCore_setBus, slaveBulkIf_setBus _ _ _ _ _ _ _ _ _ hbulk, Bus.modCore, hchan]
    rfl

end Open

end Sys2Proof.Machine


namespace Sys2Proof.Machine

/-! ## One dispatch of an address match (R287, R288) -/

/-- The context of the transfer that opens, its direction latched as `d` in interrupt transport (R288). -/
def SCtx.opened (x : SCtx) (dma : Bool) (d : Dir) : SCtx :=
  { x with
    inProgress := true, lastResult := if x.inProgress then x.lastResult else .busy
    curDir := if dma then x.dmaDir else d }

theorem SCtx.enterTransfer_eq (x : SCtx) :
    x.enterTransfer =
      { x with inProgress := true, lastResult := if x.inProgress then x.lastResult else .busy } := by
  rw [SCtx.enterTransfer, SCtx.modX]
  cases x.inProgress <;> rfl

/-- The bus of the transfer that opens, its context `x` and the records `l` as the callback leaves them. -/
def Bus.opened (b : Bus) (x : SCtx) (l : List CbRecord) : Bus :=
  { b with core := { b.core with addrmatch := false }, s := x, phase := .data, cbtrace := b.cbtrace ++ l }

theorem Bus.opened_s (b : Bus) (x : SCtx) (l : List CbRecord) : (b.opened x l).s = x := rfl

/-- R288: flag, context and phase, then the callback, then the tail of the transport. -/
theorem slaveAddrMatch_eq (i : BusId) (s : State) {dma : Bool} (h : dma = ((s.s i).transport == .dma)) :
    slaveAddrMatch i s =
      (slaveCallback i .addressMatch
        (s.setBus i ((s.bus i).opened ((s.s i).opened dma (s.core i).srwDir) []))).bind (slaveOpen dma i) := by
  have hentered : ((s.modCore i (·.clearFlag .addrmatch)).modS i .enterTransfer).setPhase i .data =
      s.setBus i ((s.bus i).opened (s.s i).enterTransfer []) := by
    rw [State.modCore_eq, State.modS_setBus, State.setPhase_setBus, Bus.opened, List.append_nil]
    rfl
  rw [slaveAddrMatch, hentered]
  simp only [State.modS_setBus, State.setBus_s, State.setBus_core, SCtx.enterTransfer_eq, Bus.opened]
  by_cases ht : (s.s i).transport = .dma
  · obtain rfl : dma = true := h.trans (beq_iff_eq.mpr ht)
    exact if_pos ht
  · obtain rfl : dma = false := h.trans (beq_eq_false_iff_ne.mpr ht)
    exact if_neg ht

theorem slaveByteEvent_none {i : BusId} {s : State} (hb : (s.core i).bnd = false) (hn : (s.core i).rxnack = false) :
    slaveByteEvent i s = .next s := by
  rw [slaveByteEvent, BusCore.byteEvent, hb, hn, Bool.false_and, Bool.false_and, Bool.or_false, if_neg Bool.false_ne_true]

/-- An enabled match is served where no posted caller waits for its wake. -/
theorem slaveMatchEvent_served {i : BusId} {s : State} (hm : (s.core i).addrmatch = true) (hie : (s.core i).addrie = true)
    (hw : (s.bus i).wakeDue = false) : slaveMatchEvent i s = slaveAddrMatch i s := by
  rw [slaveMatchEvent, hm, hie, hw]
  rfl

theorem Bus.wakeDue_eq_false {b : Bus} (h : b.wait = .none ∨ b.sem = 0) : b.wakeDue = false := by
  rcases h with h | h <;> simp [Bus.wakeDue, h]

theorem SlaveMatchEvent.dispatch {i : BusId} {s : State} (h : SlaveMatchEvent i s) :
    runInput (.dispatch i) s = slaveAddrMatch i s := by
  have hirq : (s.core i).irq = true := by simp [BusCore.irq, h.matched, h.addrie]
  rw [h.dma.dispatch_slave h.role, hirq, if_pos rfl, slaveHandler_won h.won, slaveByteEvent_none h.noByte h.acked,
    Res.bind_next, slaveStopEvent_none h.noStop, Res.bind_next,
    slaveMatchEvent_served h.matched h.addrie (Bus.wakeDue_eq_false h.resumed)]

section Match

variable {i : BusId} {s r : State} {dma : Bool} {x : SCtx} {l : List CbRecord} (h : SlaveMatchEvent i s)
  (hdma : dma = ((s.s i).transport == .dma))
  (hans : CallbackAnswer i .addressMatch s ((s.s i).opened dma (s.core i).srwDir) r x l)
include h hdma hans

theorem SlaveMatchEvent.dispatch_open :
    runInput (.dispatch i) s = slaveOpen dma i (r.setBus i ((s.bus i).opened x l)) := by
  have hrun := hans.run (b := (s.bus i).opened ((s.s i).opened dma (s.core i).srwDir) []) h.role
  rw [h.dispatch, slaveAddrMatch_eq i s hdma, hrun, Res.bind_next]
  simp only [Bus.opened, List.append_nil]

end Match

theorem State.channelStarted_src (s : State) {bulk : Bool} (c : Chan) {a a' : Endpoint} (b : Endpoint) (n : Word) (d : DmaDir)
    (i : BusId) (h : bulk = true → a = a') : s.channelStarted bulk c a b n d i = s.channelStarted bulk c a' b n d i := by
  cases bulk with
  | false => rfl
  | true => rw [h rfl]

theorem State.channelStarted_dst (s : State) {bulk : Bool} (c : Chan) (a : Endpoint) {b b' : Endpoint} (n : Word) (d : DmaDir)
    (i : BusId) (h : bulk = true → b = b') : s.channelStarted bulk c a b n d i = s.channelStarted bulk c a b' n d i := by
  cases bulk with
  | false => rfl
  | true => rw [h rfl]

/-- Settles O54: the callback's answer, then the tail of the transport by the direction of the transfer; a read by what is
buffered and by what the callback then draws. -/
theorem slaveAddressMatchOpensTransfer : Obligations.SlaveAddressMatchOpensTransfer := by
  unfold Obligations.SlaveAddressMatchOpensTransfer
  intro i s h hquiet
  obtain ⟨dma, hdma⟩ : ∃ dma, dma = ((s.s i).transport == .dma) := ⟨_, rfl⟩
  obtain ⟨r, x, l, hans⟩ := hquiet.answer (x := (s.s i).opened dma (s.core i).srwDir) rfl
  have hchan : x.dmaChannel = (s.s i).dmaChannel := hans.config.2.1
  have hcb : x.cb = (s.s i).cb := hans.config.2.2
  have hopen := h.dispatch_open hdma hans
  have hrchan (k : Chan) : r.chan k = s.chan k := congrArg (fun d => d[k.val]) hans.dma
  obtain ⟨armed, hdef⟩ : ∃ armed, armed = (dma && (s.chan (s.s i).dmaChannel).owner == .some i) := ⟨_, rfl⟩
  have harmed : armed = (dma && (r.chan x.dmaChannel).owner == .some i) := by rw [hrchan, hchan, hdef]
  have hy : x.restarted armed (r.chan x.dmaChannel).remaining =
      if armed then x.settled (s.chan (s.s i).dmaChannel).remaining else x := by rw [hrchan, hchan]; rfl
  refine ⟨dma, armed, _, r, x, _, l, _, hdma, rfl, hdef, hans.called rfl, rfl, rfl, fun hdir bulk a hbulk ha => ?writes,
    fun hdir bulk sent hbulk hsent => ?reads⟩
  case writes =>
    rw [hopen, slaveOpen_rx (b := (s.bus i).opened x l) harmed hy hdir hbulk, BusCore.opened_rx, ite_not, Bus.opened_s,
      hchan, State.channelStarted_dst _ _ _ _ _ _ fun hb => by rw [ha hb], hdir]
    rfl
  case reads =>
    generalize hyd : (if armed then x.settled (s.chan (s.s i).dmaChannel).remaining else x) = y at hy hbulk ⊢
    have htail := hopen.trans (slaveOpen_tx (b := (s.bus i).opened x l) harmed hy hdir hbulk)
    have hcore (v : Byte) : (((s.bus i).opened x l).reading y armed bulk).core.writeData v = sent v := by
      rw [Bus.reading, BusCore.opened_tx, hsent, hdir]
      rfl
    rw [Bus.opened_s, hchan] at htail
    have hycb : y.cb = (s.s i).cb := by
      rw [← hy, ((x.restarted_config _ _).2.2), hcb]
    have hnobulk (hnone : y.txRemaining = 0) : bulk = false := by
      rw [hbulk, hnone]
      exact Bool.and_false dma
    refine ⟨fun a ha hn => ?buffered, fun hnone => ⟨fun hcb => ?unset, fun user hcb hd hd2 => ?nothing⟩⟩
    case buffered =>
      have hload : ((r.restarted i (s.s i).dmaChannel armed).channelStarted bulk (s.s i).dmaChannel
          (.mem (bufAddr y.txBuf + 1)) (.data i) (y.txRemaining - 1) .mem2dev i).load a = s.load a := by
        rw [State.channelStarted_load, State.restarted_load, hans.load]
      rw [htail, slaveTxNext_buffered (a := a) hn ha, hload, hcore, ha]
      rfl
    case unset =>
      obtain rfl := hnobulk hnone
      have hu := hycb.trans hcb
      rw [htail]
      refine (CallbackAnswer.underrun (s := r.restarted i (s.s i).dmaChannel armed)
        (b := ((s.bus i).opened x l).reading y armed false)
        (.unset hu) h.role hnone hnone
        (.unset hu)).trans ?_
      rw [hcore, State.restarted_params, hans.params, hans.silent hcb]
      simp only [Bus.opened, List.append_nil]
      rfl
    case nothing =>
      obtain rfl := hnobulk hnone
      have hu := hycb.trans hcb
      have hdraw := State.drawCb_restarted r i (s.s i).dmaChannel armed
      have hdraw2 := State.drawCb_restarted r.drawCb.2 i (s.s i).dmaChannel armed
      rw [htail]
      refine (CallbackAnswer.underrun (s := r.restarted i (s.s i).dmaChannel armed)
        (b := ((s.bus i).opened x l).reading y armed false)
        (.nothing hu (by rw [hdraw]; exact hd))
        h.role hnone hnone (.nothing hu (by rw [hdraw, hdraw2]; exact hd2))).trans ?_
      rw [hdraw, hdraw2, hcore, State.restarted_params, State.drawCb_params, State.drawCb_params, hans.params,
        List.append_assoc]
      rfl

end Sys2Proof.Machine


namespace Sys2Proof.Machine

/-! ## A stop (R300, R366) -/

theorem State.settledCounts_frame (s : State) (i : BusId) (c : Chan) (x : SCtx) :
    (s.settledCounts i c x).listening = x.listening ∧ (s.settledCounts i c x).idle = x.idle ∧
      (s.settledCounts i c x).blocking = x.blocking ∧ (s.settledCounts i c x).cb = x.cb ∧
      (s.settledCounts i c x).lastResult = x.lastResult ∧ (s.settledCounts i c x).dmaChannel = x.dmaChannel := by
  unfold State.settledCounts
  split
  · rw [x.settled_eq]
    exact ⟨rfl, rfl, rfl, rfl, rfl, rfl⟩
  · exact ⟨rfl, rfl, rfl, rfl, rfl, rfl⟩

/-- The context once its channel has been settled, in DMA transport. -/
def State.stopCounts (s : State) (i : BusId) (x : SCtx) (dma : Bool) : SCtx :=
  if dma then s.settledCounts i x.dmaChannel x else x

theorem State.stopCounts_frame (s : State) (i : BusId) (x : SCtx) (dma : Bool) :
    (s.stopCounts i x dma).listening = x.listening ∧ (s.stopCounts i x dma).idle = x.idle ∧
      (s.stopCounts i x dma).blocking = x.blocking ∧ (s.stopCounts i x dma).cb = x.cb ∧
      (s.stopCounts i x dma).lastResult = x.lastResult ∧ (s.stopCounts i x dma).dmaChannel = x.dmaChannel := by
  cases dma with
  | false => exact ⟨rfl, rfl, rfl, rfl, rfl, rfl⟩
  | true => exact s.settledCounts_frame i x.dmaChannel x

/-- The core after a stop: a one-shot slave is disarmed; over DMA the requests are off and a listening one has BNDIE on. -/
def BusCore.stopEnded (k : BusCore) (listening dma : Bool) : BusCore :=
  if listening then
    { k with
      stopf := false, bndie := dma || k.bndie, dmatxen := !dma && k.dmatxen, dmarxen := !dma && k.dmarxen }
  else
    { k with
      stopf := false, addrie := false, stopie := false, nackie := false, bndie := false, dmatxen := false
      dmarxen := false }

/-- Its two steps: the flag and the channel's end, then the teardown of a one-shot slave. -/
theorem BusCore.stopEnded_of_disarm (k : BusCore) (listening dma : Bool) :
    (if listening then
      { k with
        stopf := false, bndie := dma && listening || k.bndie, dmatxen := !dma && k.dmatxen
        dmarxen := !dma && k.dmarxen }
    else
      BusCore.slaveDisarm
        { k with
          stopf := false, bndie := dma && listening || k.bndie, dmatxen := !dma && k.dmatxen
          dmarxen := !dma && k.dmarxen }) = k.stopEnded listening dma := by
  rw [BusCore.stopEnded, BusCore.slaveDisarm_eq]
  cases listening <;> simp

/-- The context after a stop, from the one with its counts settled. -/
def SCtx.stopEnded (x : SCtx) : SCtx :=
  { if x.listening then x else x.giveBack with
    inProgress := false, idle := true, lastResult := x.lastResult.orElse .success }

/-- The bus after a stop, before the callback. -/
def Bus.stopEnded (b : Bus) (x : SCtx) (dma : Bool) : Bus :=
  { b with
    core := b.core.stopEnded b.s.listening dma, s := x.stopEnded, phase := .idle
    sem := if b.s.idle = false ∧ b.s.blocking = true then b.sem + 1 else b.sem }

theorem slaveDmaEnd_setBus (i : BusId) (s : State) (b : Bus) :
    slaveDmaEnd i (s.setBus i b) =
      (s.channelSettledStopped i b.s.dmaChannel).setBus i
        { b with
          core :=
            { b.core with dmatxen := false, dmarxen := false, bndie := b.s.listening || b.core.bndie }
          s := s.settledCounts i b.s.dmaChannel b.s } := by
  obtain ⟨hl, -⟩ := s.settledCounts_frame i b.s.dmaChannel b.s
  rw [slaveDmaEnd, State.setBus_s, dmaStop_slaveDmaSettle, State.modCore_setBus]
  simp only [State.setBus_s, Bus.modCore, State.modCore_setBus, BusCore.dmareqOff, BusCore.setDmareq, BusCore.setEnable]
  by_cases h : b.s.listening
  · rw [if_pos (hl.trans h), h, Bool.true_or]
  · rw [if_neg fun hx => h (hl.symm.trans hx), eq_false_of_ne_true h, Bool.false_or]

theorem slaveTeardown_listening (i : BusId) (s : State) {b : Bus} (h : b.s.listening = true) :
    slaveTeardown i (s.setBus i b) = s.setBus i b := by
  rw [slaveTeardown, State.setBus_s, if_pos h]

theorem slaveTeardown_oneShot (i : BusId) (s : State) {b : Bus} (h : b.s.listening = false) :
    slaveTeardown i (s.setBus i b) = s.setBus i { b with core := b.core.slaveDisarm, s := b.s.giveBack } := by
  rw [slaveTeardown, State.setBus_s, if_neg (ne_true_of_eq_false h), State.modCore_setBus, State.modS_setBus, Bus.modCore,
    Bus.modS]

theorem slaveEndIdle_setBus (i : BusId) (s : State) (b : Bus) :
    slaveEndIdle i (s.setBus i b) =
      (s.idleMarked i b.s.idle).setBus i
        { b with
          s := { b.s with idle := true }
          sem := if b.s.idle = false ∧ b.s.blocking = true then b.sem + 1 else b.sem } := by
  rw [slaveEndIdle, State.setBus_s]
  by_cases hidle : b.s.idle
  · have hnone := slaveIdle_setBus i s b
    rw [slaveIdle, State.setBus_s, if_pos hidle] at hnone
    rw [if_pos hidle, hnone, if_neg (by simp [hidle])]
    rfl
  · rw [if_neg hidle, slaveIdle_setBus, State.modBus_setBus, Bus.postS_eq]
    simp only [hidle, Bus.modS, SCtx.modX, true_and]
    rfl

/-- The context idle, its caller posted, the callback told. -/
theorem slaveEndIdle_called (i : BusId) (t : State) {b : Bus} (hr : b.role = .slave) :
    ((slaveEndIdle i (t.setBus i b)).setPhase i .idle).notify i .endOfTransfer =
      (t.idleMarked i b.s.idle).setBus i
        (Bus.called
          { b with
            s := { b.s with idle := true }, phase := .idle
            sem := if b.s.idle = false ∧ b.s.blocking = true then b.sem + 1 else b.sem }
          i b.s.cb .endOfTransfer) := by
  rw [slaveEndIdle_setBus, State.setPhase_setBus, State.notify_setBus]
  exact congrArg _ (Bus.notify_slave (by exact hr) i _)

/-- The end of a transfer whose channel is settled: the result, the teardown of a one-shot slave, the idle context and its
post, the callback. -/
theorem slaveStop_tail (i : BusId) (t : State) {b : Bus} (hr : b.role = .slave) :
    ((slaveEndIdle i (slaveTeardown i ((t.setBus i b).modS i fun x =>
      (x.modX (·.settleResult)).leaveTransfer))).setPhase i .idle).notify i .endOfTransfer =
      (t.idleMarked i b.s.idle).setBus i
        (Bus.called
          { b with
            core := if b.s.listening then b.core else b.core.slaveDisarm, s := b.s.stopEnded, phase := .idle
            sem := if b.s.idle = false ∧ b.s.blocking = true then b.sem + 1 else b.sem }
          i b.s.cb .endOfTransfer) := by
  have hleft : (t.setBus i b).modS i (fun x => (x.modX (·.settleResult)).leaveTransfer) =
      t.setBus i
        { b with s := { b.s with inProgress := false, lastResult := b.s.lastResult.orElse .success } } := by
    simp only [State.modS_setBus, Bus.modS, SCtx.modX, Xfer.settleResult_eq, SCtx.leaveTransfer]
  rw [hleft, SCtx.stopEnded]
  cases hl : b.s.listening with
  | true =>
    rw [slaveTeardown_listening i t (by exact hl), slaveEndIdle_called i t (by exact hr), if_pos rfl, if_pos rfl]
  | false =>
    rw [slaveTeardown_oneShot i t (by exact hl), slaveEndIdle_called i t (by exact hr), if_neg Bool.false_ne_true,
      if_neg Bool.false_ne_true]
    rfl

/-- R300: the flag, the channel, the result, the teardown of a one-shot slave, the idle context and its post, the callback. -/
theorem slaveStop_eq {i : BusId} {s : State} (hr : (s.bus i).role = .slave) {dma : Bool}
    (hdma : dma = ((s.s i).transport == .dma)) :
    slaveStop i s =
      ((s.restarted i (s.s i).dmaChannel dma).idleMarked i (s.s i).idle).setBus i
        (((s.bus i).stopEnded (s.stopCounts i (s.s i) dma) dma).called i (s.s i).cb .endOfTransfer) := by
  obtain ⟨hl, hidle, hblock, hcb, hres, -⟩ := s.stopCounts_frame i (s.s i) dma
  have hcleared : s.modCore i (·.clearFlag .stopf) =
      s.setBus i { s.bus i with core := { s.core i with stopf := false } } := rfl
  have hended : (if ((s.modCore i (·.clearFlag .stopf)).s i).transport = .dma
      then slaveDmaEnd i (s.modCore i (·.clearFlag .stopf)) else s.modCore i (·.clearFlag .stopf)) =
      (s.restarted i (s.s i).dmaChannel dma).setBus i
        { s.bus i with
          core :=
            { s.core i with
              stopf := false, bndie := dma && (s.s i).listening || (s.core i).bndie
              dmatxen := !dma && (s.core i).dmatxen, dmarxen := !dma && (s.core i).dmarxen }
          s := s.stopCounts i (s.s i) dma } := by
    rw [hcleared, State.setBus_s, slaveDmaEnd_setBus]
    by_cases ht : (s.s i).transport = .dma
    · obtain rfl : dma = true := hdma.trans (beq_iff_eq.mpr ht)
      exact if_pos ht
    · obtain rfl : dma = false := hdma.trans (beq_eq_false_iff_ne.mpr ht)
      exact if_neg ht
  rw [slaveStop, hended]
  refine (slaveStop_tail i _ (by exact hr)).trans ?_
  simp only [hl, hidle, hblock, hcb]
  rw [BusCore.stopEnded_of_disarm]
  rfl

end Sys2Proof.Machine


namespace Sys2Proof.Machine

/-! ## One dispatch of a stop (R287, R300) -/

section NoByte

variable {i : BusId} {s : State} (hr : (s.bus i).role = .slave) (hdma : noDmaEvent i s)
  (hwon : (s.core i).arblost = false) (hbyte : (s.core i).byteEvent = false)
include hr hdma hwon hbyte

/-- With no byte event to serve, a dispatch serves the stop and then the match. -/
theorem dispatch_noByte : runInput (.dispatch i) s = (slaveStopEvent i s).bind (slaveMatchEvent i) := by
  rw [hdma.dispatch_slave hr]
  by_cases hirq : (s.core i).irq
  · rw [if_pos hirq, slaveHandler_won hwon, slaveByteEvent, hbyte, if_neg Bool.false_ne_true, Res.bind_next]
  · obtain ⟨-, -, -, hm, hs⟩ := (s.core i).irq_eq_false.mp (eq_false_of_ne_true hirq)
    rw [if_neg hirq, slaveStopEvent, hs, if_neg Bool.false_ne_true, Res.bind_next, slaveMatchEvent, hm, Bool.false_and,
      if_neg Bool.false_ne_true]

theorem dispatch_stop (hs : (s.core i).stopf = true) (hie : (s.core i).stopie = true) :
    runInput (.dispatch i) s = slaveMatchEvent i (slaveStop i s) := by
  rw [dispatch_noByte hr hdma hwon hbyte, slaveStopEvent, hs, hie, Bool.and_self, if_pos rfl,
    Res.bind_next]

theorem dispatch_match (hs : (s.core i).stopf = false) : runInput (.dispatch i) s = slaveMatchEvent i s := by
  rw [dispatch_noByte hr hdma hwon hbyte, slaveStopEvent_none hs, Res.bind_next]

end NoByte

theorem BusCore.byteEvent_none {c : BusCore} (hb : c.bnd = false) (hn : c.rxnack = false) : c.byteEvent = false := by
  rw [BusCore.byteEvent, hb, hn]
  rfl

theorem Bus.called_core (b : Bus) (i : BusId) (cb : Option Word) (e : Event) : (b.called i cb e).core = b.core := by
  cases cb <;> rfl

theorem BusCore.stopEnded_flags (k : BusCore) (listening dma : Bool) :
    (k.stopEnded listening dma).stopf = false ∧ (k.stopEnded listening dma).addrmatch = k.addrmatch ∧
      (k.stopEnded listening dma).bnd = k.bnd ∧ (k.stopEnded listening dma).rxnack = k.rxnack ∧
      (k.stopEnded listening dma).arblost = k.arblost ∧ (k.stopEnded listening dma).addrie = (listening && k.addrie) := by
  cases listening <;> exact ⟨rfl, rfl, rfl, rfl, rfl, rfl⟩

theorem slaveStop_core {i : BusId} {s : State} (hr : (s.bus i).role = .slave) :
    (slaveStop i s).core i = (s.core i).stopEnded (s.s i).listening ((s.s i).transport == .dma) := by
  rw [slaveStop_eq hr rfl, State.setBus_core, Bus.called_core]
  rfl

theorem SlaveStopEvent.dispatch {i : BusId} {s : State} (h : SlaveStopEvent i s) :
    runInput (.dispatch i) s = .next (slaveStop i s) := by
  obtain ⟨-, hkept, -⟩ := (s.core i).stopEnded_flags (s.s i).listening ((s.s i).transport == .dma)
  rw [dispatch_stop h.role h.dma h.won (BusCore.byteEvent_none h.noByte h.acked) h.stopped h.stopie]
  exact slaveMatchEvent_none (by rw [slaveStop_core h.role, hkept, h.noMatch])

end Sys2Proof.Machine


namespace Sys2Proof.Machine

/-! ## A stop and an address match pending together (R287) -/

/-- The core with its pending stop and address match as given. -/
def BusCore.withEvents (k : BusCore) (p q : Bool) : BusCore := { k with stopf := p, addrmatch := q }

def Bus.withEvents (b : Bus) (p q : Bool) : Bus := b.modCore (·.withEvents p q)

theorem State.withEvents_eq (s : State) (i : BusId) (p q : Bool) :
    s.withEvents i p q = s.setBus i ((s.bus i).withEvents p q) := rfl

theorem State.withEvents_setBus (s : State) (i : BusId) (b : Bus) (p q : Bool) :
    (s.setBus i b).withEvents i p q = s.setBus i (b.withEvents p q) := by
  rw [State.withEvents_eq, State.setBus_setBus, State.setBus_bus_same]

theorem State.withEvents_bus (s : State) (i : BusId) (p q : Bool) :
    (s.withEvents i p q).bus i = (s.bus i).withEvents p q := State.setBus_bus_same ..

theorem State.withEvents_core (s : State) (i : BusId) (p q : Bool) :
    (s.withEvents i p q).core i = (s.core i).withEvents p q := State.setBus_core ..

theorem State.withEvents_s (s : State) (i : BusId) (p q : Bool) : (s.withEvents i p q).s i = s.s i := State.setBus_s ..

theorem State.withEvents_withEvents (s : State) (i : BusId) (p q p' q' : Bool) :
    (s.withEvents i p q).withEvents i p' q' = s.withEvents i p' q' := by
  rw [State.withEvents_eq s, State.withEvents_setBus]
  rfl

/-- The events of a state are its own. -/
theorem State.withEvents_self {s : State} {i : BusId} {p q : Bool} (hp : (s.core i).stopf = p)
    (hq : (s.core i).addrmatch = q) : s.withEvents i p q = s := by
  subst hp hq
  exact s.setBus_self i

theorem BusCore.stopEnded_withEvents (k : BusCore) (p q listening dma : Bool) :
    (k.withEvents p q).stopEnded listening dma = (k.stopEnded listening dma).withEvents false q := by
  cases listening <;> rfl

theorem Bus.called_withEvents (b : Bus) (i : BusId) (cb : Option Word) (e : Event) (p q : Bool) :
    (b.withEvents p q).called i cb e = (b.called i cb e).withEvents p q := by
  cases cb <;> rfl

theorem State.restarted_setBus (s : State) (i : BusId) (b : Bus) (c : Chan) (armed : Bool) :
    (s.setBus i b).restarted i c armed = (s.restarted i c armed).setBus i b := by
  cases armed with
  | false => rfl
  | true =>
    rw [State.restarted, if_pos rfl, ← dmaStop_channelReleased, State.channelReleased_setBus]
    exact congrArg (·.setBus i b) (dmaStop_channelReleased i c s)

theorem noDmaEvent_slave {i : BusId} {s : State} (hr : (s.bus i).role = .slave) :
    noDmaEvent i s ↔
      ((s.chan (s.s i).dmaChannel).owner = .some i →
        (s.chan (s.s i).dmaChannel).done = false ∧ (s.chan (s.s i).dmaChannel).err = false) := by
  rw [noDmaEvent, State.ctx_eq, (s.bus i).ctx_slave hr]
  rfl

/-- A channel settled and stopped has no event, and one left alone those it had. -/
theorem State.restarted_chan {s : State} {i : BusId} {c : Chan} (armed : Bool)
    (h : (s.chan c).owner = .some i → (s.chan c).done = false ∧ (s.chan c).err = false) :
    ((s.restarted i c armed).chan c).owner = .some i →
      ((s.restarted i c armed).chan c).done = false ∧ ((s.restarted i c armed).chan c).err = false := by
  cases armed with
  | false => exact h
  | true =>
    intro _
    rw [State.restarted, if_pos rfl, ← dmaStop_channelReleased, dmaStop, State.logDma_chan, State.modChan_chan_same]
    exact ⟨rfl, rfl⟩

theorem SCtx.stopEnded_dmaChannel (x : SCtx) : x.stopEnded.dmaChannel = x.dmaChannel := by
  unfold SCtx.stopEnded
  split <;> rfl

section Stop

variable {i : BusId} {s : State} (hr : (s.bus i).role = .slave)
include hr

/-- A stop takes its flag and leaves the match pending. -/
theorem slaveStop_withEvents (p q : Bool) : slaveStop i (s.withEvents i p q) = (slaveStop i s).withEvents i false q := by
  obtain ⟨dma, hdma⟩ : ∃ dma, dma = ((s.s i).transport == .dma) := ⟨_, rfl⟩
  have hbus (x : SCtx) : ((s.bus i).withEvents p q).stopEnded x dma = ((s.bus i).stopEnded x dma).withEvents false q :=
    congrArg (fun k => { (s.bus i).stopEnded x dma with core := k }) ((s.core i).stopEnded_withEvents p q _ dma)
  have hr' : ((s.withEvents i p q).bus i).role = .slave := by rw [State.withEvents_bus]; exact hr
  have hdma' : dma = (((s.withEvents i p q).s i).transport == .dma) := by rw [State.withEvents_s]; exact hdma
  rw [slaveStop_eq hr hdma, slaveStop_eq hr' hdma', State.withEvents_setBus, ← Bus.called_withEvents, ← hbus,
    State.withEvents_s, State.withEvents_bus, State.withEvents_eq, State.restarted_setBus]
  exact State.setBus_setBus ((s.restarted i (s.s i).dmaChannel dma).idleMarked i (s.s i).idle) i _ _

theorem slaveStop_role : ((slaveStop i s).bus i).role = .slave := by
  rw [slaveStop_eq hr rfl, State.setBus_bus_same]
  cases (s.s i).cb <;> exact hr

theorem slaveStop_dmaChannel : ((slaveStop i s).s i).dmaChannel = (s.s i).dmaChannel := by
  obtain ⟨-, -, -, -, -, hchan⟩ := s.stopCounts_frame i (s.s i) ((s.s i).transport == .dma)
  rw [slaveStop_eq hr rfl, State.setBus_s]
  cases (s.s i).cb <;> exact (SCtx.stopEnded_dmaChannel _).trans hchan

theorem slaveStop_noDmaEvent (h : noDmaEvent i s) : noDmaEvent i (slaveStop i s) := by
  refine (noDmaEvent_slave (slaveStop_role hr)).mpr ?_
  rw [slaveStop_dmaChannel hr, slaveStop_eq hr rfl]
  exact State.restarted_chan ((s.s i).transport == .dma) ((noDmaEvent_slave hr).mp h)

end Stop

theorem slaveMatchEvent_off {i : BusId} {s : State} (h : (s.core i).addrie = false ∨ (s.bus i).wakeDue = true) :
    slaveMatchEvent i s = .next s := by
  rw [slaveMatchEvent, if_neg]
  rcases h with h | h <;> simp [h]

theorem Bus.wakeDue_of_withEvents {b : Bus} {p q : Bool} (hw : (b.withEvents p q).wait.isSome = true)
    (hs : (b.withEvents p q).sem ≠ 0) : b.wakeDue = true := Bool.and_eq_true_iff.mpr ⟨hw, bne_iff_ne.mpr hs⟩

section StopMatch

variable {i : BusId} {s : State} (hr : (s.bus i).role = .slave) (hdma : noDmaEvent i s)
  (hwon : (s.core i).arblost = false) (hb : (s.core i).bnd = false) (hn : (s.core i).rxnack = false)
include hr hdma hwon hb hn

/-- Once the stop is served, a dispatch serves the match as it stands. -/
theorem slaveStop_dispatch : runInput (.dispatch i) (slaveStop i s) = slaveMatchEvent i (slaveStop i s) := by
  obtain ⟨hstop, -, hbnd, hnack, hlost, -⟩ := (s.core i).stopEnded_flags (s.s i).listening ((s.s i).transport == .dma)
  rw [← slaveStop_core hr] at hstop hbnd hnack hlost
  exact dispatch_match (slaveStop_role hr) (slaveStop_noDmaEvent hr hdma) (hlost.trans hwon)
    (BusCore.byteEvent_none (hbnd.trans hb) (hnack.trans hn)) hstop

theorem dispatch_stopAlone (hie : (s.core i).stopie = true) :
    runInput (.dispatch i) (s.withEvents i true false) = .next ((slaveStop i s).withEvents i false false) := by
  have h : SlaveStopEvent i (s.withEvents i true false) :=
    { role := by rw [State.withEvents_bus]; exact hr
      stopped := by rw [State.withEvents_core]; rfl
      stopie := by rw [State.withEvents_core]; exact hie
      noByte := by rw [State.withEvents_core]; exact hb
      acked := by rw [State.withEvents_core]; exact hn
      noMatch := by rw [State.withEvents_core]; rfl
      won := by rw [State.withEvents_core]; exact hwon
      dma := hdma.setCore _ }
  rw [h.dispatch, slaveStop_withEvents hr]

/-- R287, R388: the stop ends the transfer, then the match is served as its own dispatch serves it, or stays pending. -/
theorem dispatch_stopThenMatch (hs : (s.core i).stopf = true) (hie : (s.core i).stopie = true)
    (hm : (s.core i).addrmatch = true) :
    ∃ u, runInput (.dispatch i) (s.withEvents i true false) = .next u ∧
      runInput (.dispatch i) s = runInput (.dispatch i) (u.withEvents i false true) ∧
      ((s.s i).listening = false ∨ (s.core i).addrie = false ∨ ((u.bus i).wait.isSome = true ∧ (u.bus i).sem ≠ 0) →
        runInput (.dispatch i) s = .next (u.withEvents i false true)) := by
  obtain ⟨hstop, hmatch, -, -, -, haddrie⟩ := (s.core i).stopEnded_flags (s.s i).listening ((s.s i).transport == .dma)
  rw [← slaveStop_core hr] at hstop hmatch haddrie
  have hboth : ((slaveStop i s).withEvents i false false).withEvents i false true = slaveStop i s := by
    rw [State.withEvents_withEvents, State.withEvents_self hstop (hmatch.trans hm)]
  have hdisp : runInput (.dispatch i) s = slaveMatchEvent i (slaveStop i s) :=
    dispatch_stop hr hdma hwon (BusCore.byteEvent_none hb hn) hs hie
  refine ⟨_, dispatch_stopAlone hr hdma hwon hb hn hie, ?_, fun hoff => ?_⟩
  · rw [hboth, hdisp, slaveStop_dispatch hr hdma hwon hb hn]
  · rw [hboth, hdisp]
    refine slaveMatchEvent_off ?_
    rw [haddrie]
    rcases hoff with h | h | ⟨hwait, hsem⟩
    · exact .inl (by rw [h]; rfl)
    · exact .inl (by rw [h, Bool.and_false])
    · rw [State.withEvents_bus] at hwait hsem
      exact .inr (Bus.wakeDue_of_withEvents hwait hsem)

end StopMatch

end Sys2Proof.Machine


namespace Sys2Proof.Machine

/-! ## What the byte event leaves aside (R287) -/

/-- What every step of the byte event keeps of the instance, and what it sets none of. -/
structure Bus.Spared (b c : Bus) : Prop where
  role : c.role = b.role
  chan : c.s.dmaChannel = b.s.dmaChannel
  won : c.core.arblost = b.core.arblost
  bnd : b.core.bnd = false → c.core.bnd = false
  acked : b.core.rxnack = false → c.core.rxnack = false

theorem Bus.Spared.refl (b : Bus) : b.Spared b := ⟨rfl, rfl, rfl, id, id⟩

theorem Bus.Spared.trans {b c d : Bus} (h : b.Spared c) (k : c.Spared d) : b.Spared d :=
  ⟨k.role.trans h.role, k.chan.trans h.chan, k.won.trans h.won, k.bnd ∘ h.bnd, k.acked ∘ h.acked⟩

/-- A step that commutes with setting the pending stop and address match, and touches no channel. -/
structure EventsAside (i : BusId) (f : State → Res) : Prop where
  commutes : ∀ s p q, f (s.withEvents i p q) = (f s).bind fun t => .next (t.withEvents i p q)
  dma : ∀ {s t}, f s = .next t → t.dma = s.dma
  spared : ∀ {s t}, f s = .next t → (s.bus i).Spared (t.bus i)

section Aside

variable {i : BusId}

theorem EventsAside.next : EventsAside i .next where
  commutes _ _ _ := rfl
  dma e := by cases e; rfl
  spared e := by cases e; exact .refl _

theorem EventsAside.refused (r : Refusal) : EventsAside i fun _ => .refused r where
  commutes _ _ _ := rfl
  dma e := by cases e
  spared e := by cases e

theorem EventsAside.bind {f g : State → Res} (hf : EventsAside i f) (hg : EventsAside i g) :
    EventsAside i fun s => (f s).bind g where
  commutes s p q := by
    rw [hf.commutes]
    cases f s with
    | next t => exact hg.commutes t p q
    | fault e => rfl
    | refused e => rfl
  dma e := by
    obtain ⟨u, h1, h2⟩ := Res.bind_eq_next e
    exact (hg.dma h2).trans (hf.dma h1)
  spared e := by
    obtain ⟨u, h1, h2⟩ := Res.bind_eq_next e
    exact (hf.spared h1).trans (hg.spared h2)

/-- A step that depends on something the two events are no part of. -/
theorem EventsAside.reading {α : Type} {f : α → State → Res} (g : State → α)
    (hg : ∀ s p q, g (s.withEvents i p q) = g s) (hf : ∀ a, EventsAside i (f a)) : EventsAside i fun s => f (g s) s where
  commutes s p q := by rw [hg]; exact (hf _).commutes s p q
  dma e := (hf _).dma e
  spared e := (hf _).spared e

theorem EventsAside.ite {c : State → Prop} {_ : DecidablePred c} {f g : State → Res}
    (hc : ∀ s p q, c (s.withEvents i p q) ↔ c s) (hf : EventsAside i f) (hg : EventsAside i g) :
    EventsAside i fun s => if c s then f s else g s where
  commutes s p q := by
    simp only [hc, hf.commutes, hg.commutes]
    split <;> rfl
  dma e := by
    split at e
    · exact hf.dma e
    · exact hg.dma e
  spared e := by
    split at e
    · exact hf.spared e
    · exact hg.spared e

/-- A step on what an update leaves. -/
theorem EventsAside.after {f : State → Res} {u : State → State} (hf : EventsAside i f)
    (hu : EventsAside i fun s => .next (u s)) : EventsAside i fun s => f (u s) := hu.bind hf

theorem EventsAside.modBus {f : Bus → Bus} (hf : ∀ b p q, f (b.withEvents p q) = (f b).withEvents p q)
    (hs : ∀ b : Bus, b.Spared (f b)) : EventsAside i fun s => .next (s.modBus i f) where
  commutes s p q := by
    rw [State.withEvents_eq, State.modBus_setBus, hf, Res.bind_next, State.modBus, State.withEvents_setBus]
  dma e := by cases e; rfl
  spared e := by cases e; rw [State.modBus_bus_same]; exact hs _

theorem EventsAside.modS {f : SCtx → SCtx} (hf : ∀ x, (f x).dmaChannel = x.dmaChannel) :
    EventsAside i fun s => .next (s.modS i f) :=
  .modBus (fun _ _ _ => rfl) fun b => ⟨rfl, hf b.s, rfl, id, id⟩

theorem EventsAside.setPhase (p : Phase) : EventsAside i fun s => .next (s.setPhase i p) :=
  .modBus (fun _ _ _ => rfl) fun _ => ⟨rfl, rfl, rfl, id, id⟩

theorem EventsAside.writeData (v : Byte) : EventsAside i fun s => .next (s.modCore i (·.writeData v)) :=
  .modBus (fun _ _ _ => rfl) fun _ => ⟨rfl, rfl, rfl, fun _ => rfl, id⟩

theorem EventsAside.readData : EventsAside i fun s => .next (s.modCore i .readData) :=
  .modBus (fun _ _ _ => rfl) fun _ => ⟨rfl, rfl, rfl, fun _ => rfl, id⟩

theorem EventsAside.notify (e : Event) : EventsAside i fun s => .next (s.notify i e) := by
  refine .modBus (fun b p q => ?_) fun b => ?_
  · have hctx : (b.withEvents p q).ctx = b.ctx := rfl
    unfold Bus.notify
    rw [hctx]
    split <;> rfl
  · unfold Bus.notify
    split <;> exact ⟨rfl, rfl, rfl, id, id⟩

theorem EventsAside.store (a : Word) (v : Byte) : EventsAside i fun s => .next (s.store a v) where
  commutes _ _ _ := rfl
  dma e := by cases e; rfl
  spared e := by cases e; exact .refl _

theorem EventsAside.drawCb {f : CbDraw → State → Res} (hf : ∀ d, EventsAside i (f d)) :
    EventsAside i fun s => f s.drawCb.1 s.drawCb.2 where
  commutes s p q := by
    rw [State.withEvents_eq, State.drawCb_setBus, ← State.drawCb_bus s i]
    exact (hf _).commutes s.drawCb.2 p q
  dma e := ((hf _).dma e).trans (State.drawCb_dma _)
  spared {s _} e := by
    rw [← State.drawCb_bus s i]
    exact (hf _).spared e

theorem channelMoving_withEvents (s : State) (p q : Bool) : channelMoving i (s.withEvents i p q) = channelMoving i s := by
  rw [channelMoving, State.withEvents_s]
  rfl

theorem slaveLend_aside (m : Bool) (d : Dir) (buf len : Word) : EventsAside i (slaveLend i m d buf len) :=
  .ite (fun s p q => by rw [channelMoving_withEvents]) (.refused _) (.modS fun x => x.lendSet_dmaChannel d buf len)

theorem callbackLend_aside (m : Bool) (d : Dir) (l : Lend) : EventsAside i (callbackLend i m d l) :=
  .ite (fun _ _ _ => .rfl) .next (.ite (fun _ _ _ => .rfl) (.refused _) (slaveLend_aside m d l.buf l.len))

theorem applyCb_aside (m : Bool) (d : CbDraw) : EventsAside i (applyCb i m d) := by
  cases d with
  | nothing => exact .next
  | setTx l => exact callbackLend_aside m .tx l
  | setRx l => exact callbackLend_aside m .rx l
  | setTxRx l k => exact .bind (callbackLend_aside m .tx l) (callbackLend_aside m .rx k)
  | setRxTx k l => exact .bind (callbackLend_aside m .rx k) (callbackLend_aside m .tx l)

/-- What a slave's callback does, by the callback installed. -/
theorem slaveCallback_eq (e : Event) (s : State) :
    slaveCallback i e s =
      if (s.ctx i).cb = .none then .next s
      else applyCb i (e == .addressMatch) (s.notify i e).drawCb.1 (s.notify i e).drawCb.2 := by
  rw [slaveCallback]
  cases (s.ctx i).cb <;> rfl

theorem slaveCallback_aside (e : Event) : EventsAside i (slaveCallback i e) := by
  have hctx (s : State) (p q : Bool) : (s.withEvents i p q).ctx i = s.ctx i := by
    rw [State.ctx_eq, State.withEvents_bus]
    rfl
  rw [funext (slaveCallback_eq e)]
  exact .ite (fun s p q => by rw [hctx]) .next
    ((EventsAside.drawCb (applyCb_aside (e == .addressMatch))).after (.notify e))

theorem slaveRecordError_aside (r : Result) : EventsAside i (slaveRecordError i r) := by
  have recorded := EventsAside.modS (i := i) (f := (·.modX fun x => { x with lastResult := r })) fun _ => rfl
  exact ((slaveCallback_aside .error).after (recorded.after (.setPhase .error))).bind (.setPhase .data)

theorem slaveSendByte_aside : EventsAside i fun s => .next (slaveSendByte i s) := by
  have taken := EventsAside.modS (i := i) (f := (·.modX (·.advanceTx 1))) fun _ => rfl
  exact .reading (f := fun v s => .next ((s.modSX i (·.advanceTx 1)).modCore i (·.writeData v)))
    (fun s => s.load (bufAddr (s.s i).txBuf)) (fun s p q => by rw [State.withEvents_s]; rfl)
    fun v => (EventsAside.writeData v).after taken

theorem slaveTxNext_aside : EventsAside i (slaveTxNext i) := by
  have filled : EventsAside i fun s => .next (s.modCore i (·.writeData s.params.slaveFill)) :=
    .reading (f := fun v s => .next (s.modCore i (·.writeData v))) (·.params.slaveFill) (fun _ _ _ => rfl) .writeData
  refine .bind (.ite (fun s p q => ?_) (slaveCallback_aside .txEmpty) .next)
    (.ite (fun s p q => ?_) slaveSendByte_aside ((slaveRecordError_aside .txUnderrun).bind filled))
  all_goals rw [State.withEvents_s]

theorem slaveRecvByte_aside : EventsAside i (slaveRecvByte i) := by
  have moved := EventsAside.modS (i := i) (f := (·.modX (·.advanceRx 1))) fun _ => rfl
  have acked (a : Ack) : EventsAside i fun s => .next (s.modCore i fun c => (c.setAck a).readData) :=
    .modBus (fun _ _ _ => rfl) fun _ => ⟨rfl, rfl, rfl, fun _ => rfl, id⟩
  refine .ite (fun s p q => by rw [State.withEvents_s]) ?_ ((slaveRecordError_aside .rxOverrun).after .readData)
  exact .reading
    (f := fun (g : Word × Byte × Ack) s =>
      .next (((s.store g.1 g.2.1).modSX i (·.advanceRx 1)).modCore i fun c => (c.setAck g.2.2).readData))
    (fun s => (bufAddr (s.s i).rxBuf + (s.s i).rxCursor, (s.core i).data, if 1 < (s.s i).rxRemaining then .ack else .nack))
    (fun s p q => by rw [State.withEvents_s, State.withEvents_core]; rfl)
    fun g => (acked g.2.2).after (moved.after (.store g.1 g.2.1))

/-- A byte in progress, by the direction of the transfer. -/
def slaveByte (i : BusId) (d : Dir) (s : State) : Res := if d = .tx then slaveTxNext i s else slaveRecvByte i s

theorem slaveByte_aside (d : Dir) : EventsAside i (slaveByte i d) :=
  .ite (fun _ _ _ => .rfl) slaveTxNext_aside slaveRecvByte_aside

/-- The byte event of R287 as a choice of four. -/
theorem slaveByteEvent_eq (s : State) :
    slaveByteEvent i s =
      if (s.core i).byteEvent then
        if (s.s i).inProgress = false then .next (slaveSpurious i s)
        else if (s.core i).rxnack then .next (slaveNack i s)
        else slaveByte i (s.s i).curDir s
      else .next s := by
  rw [slaveByteEvent]
  cases (s.s i).curDir <;> rfl

theorem slaveByteEvent_aside : EventsAside i (slaveByteEvent i) := by
  have spurious : EventsAside i fun s => .next (slaveSpurious i s) :=
    .modBus (f := (·.modCore fun c => c.readData.clearFlag .rxnack)) (fun _ _ _ => rfl)
      fun _ => ⟨rfl, rfl, rfl, fun _ => rfl, fun _ => rfl⟩
  have refused : EventsAside i fun s => .next (slaveNack i s) :=
    .modBus (f := (·.modCore fun c => (c.clearFlag .rxnack).clearFlag .bnd)) (fun _ _ _ => rfl)
      fun _ => ⟨rfl, rfl, rfl, fun _ => rfl, fun _ => rfl⟩
  rw [funext slaveByteEvent_eq]
  refine .ite (fun s p q => ?_) (.ite (fun s p q => ?_) spurious (.ite (fun s p q => ?_) refused
    (.reading (fun s => (s.s i).curDir) (fun s p q => ?_) slaveByte_aside))) .next
  · rw [State.withEvents_core]
    rfl
  · rw [State.withEvents_s]
  · rw [State.withEvents_core]
    rfl
  · rw [State.withEvents_s]

/-! ## One dispatch of a byte event with others pending (R287) -/

theorem slaveTxNext_bnd {s t : State} (e : slaveTxNext i s = .next t) : (t.core i).bnd = false := by
  have written (u : State) (v : Byte) : ((u.modCore i (·.writeData v)).core i).bnd = false := by
    rw [State.core_eq, State.modCore_bus_same]
    rfl
  obtain ⟨u, -, h⟩ := Res.bind_eq_next e
  split at h
  · cases h
    exact written ..
  · obtain ⟨v, -, h⟩ := Res.bind_eq_next h
    cases h
    exact written ..

theorem slaveRecvByte_bnd {s t : State} (e : slaveRecvByte i s = .next t) : (t.core i).bnd = false := by
  unfold slaveRecvByte at e
  dsimp only at e
  split at e
  · cases e
    rw [State.core_eq, State.modCore_bus_same]
    rfl
  · refine ((slaveRecordError_aside _).spared e).bnd ?_
    rw [State.modCore_bus_same]
    rfl

/-- A byte event is served once: none is pending after it. -/
theorem slaveByteEvent_serves {s t : State} (e : slaveByteEvent i s = .next t) : (t.core i).byteEvent = false := by
  rw [slaveByteEvent_eq] at e
  split at e
  · split at e
    · cases e
      rw [slaveSpurious, State.core_eq, State.modCore_bus_same]
      exact BusCore.byteEvent_none rfl rfl
    · split at e
      · cases e
        rw [slaveNack, State.core_eq, State.modCore_bus_same]
        exact BusCore.byteEvent_none rfl rfl
      · rename_i hnack
        refine BusCore.byteEvent_none ?_ (((slaveByte_aside _).spared e).acked (eq_false_of_ne_true hnack))
        unfold slaveByte at e
        split at e
        · exact slaveTxNext_bnd e
        · exact slaveRecvByte_bnd e
  · rename_i hnone
    cases e
    exact eq_false_of_ne_true hnone

end Aside

/-- R287: the byte event is served first, as if nothing else were pending, and the rest as its own dispatch serves it. -/
theorem ByteAlone.dispatch_byteFirst {i : BusId} {s u : State} (h : ByteAlone i s)
    (e : runInput (.dispatch i) (s.withEvents i false false) = .next u) :
    runInput (.dispatch i) s = runInput (.dispatch i) (u.withEvents i (s.core i).stopf (s.core i).addrmatch) := by
  obtain ⟨hr, hp, hwon, hdma⟩ := h
  have hcommutes := (slaveByteEvent_aside (i := i)).commutes s
  have halone : ByteAlone i (s.withEvents i false false) :=
    { role := by rw [State.withEvents_bus]; exact hr
      pending := by rw [State.withEvents_core]; exact hp
      won := by rw [State.withEvents_core]; exact hwon
      dma := hdma.setCore _ }
  rw [halone.dispatch, hcommutes] at e
  obtain ⟨u₁, e, hmatch⟩ := Res.bind_eq_next e
  obtain ⟨u₀, e, hstop⟩ := Res.bind_eq_next e
  obtain ⟨t, ht, e⟩ := Res.bind_eq_next e
  cases e
  rw [slaveStopEvent_none (by rw [State.withEvents_core]; rfl)] at hstop
  cases hstop
  rw [slaveMatchEvent_none (by rw [State.withEvents_core]; rfl)] at hmatch
  cases hmatch
  have hown : t.withEvents i (s.core i).stopf (s.core i).addrmatch = t := by
    have := hcommutes (s.core i).stopf (s.core i).addrmatch
    rw [State.withEvents_self rfl rfl, ht] at this
    exact (Host.Outcome.next.inj this).symm
  have hspared := slaveByteEvent_aside.spared ht
  have hrole : (t.bus i).role = .slave := hspared.role.trans hr
  have hquiet : noDmaEvent i t := by
    rw [noDmaEvent_slave hrole, State.chan, slaveByteEvent_aside.dma ht]
    have hchan : (t.s i).dmaChannel = (s.s i).dmaChannel := hspared.chan
    rw [hchan]
    exact (noDmaEvent_slave hr).mp hdma
  rw [State.withEvents_withEvents, hown, dispatch_noByte hrole hquiet (hspared.won.trans hwon) (slaveByteEvent_serves ht),
    ByteAlone.dispatch ⟨hr, hp, hwon, hdma⟩, ht, Res.bind_next]

/-- Settles O55: events pending together one after another, and a stop alone by the equation of R300. -/
theorem slaveStopEndsTransfer : Obligations.SlaveStopEndsTransfer := by
  unfold Obligations.SlaveStopEndsTransfer
  refine ⟨fun i s hr hwon hdma => ⟨fun u hp e => ?byteFirst, fun hb hn hs hie hm => ?stopThenMatch⟩, fun i s h => ?stop⟩
  case byteFirst => exact ByteAlone.dispatch_byteFirst ⟨hr, hp, hwon, hdma⟩ e
  case stopThenMatch =>
    obtain ⟨u, hu, hserved, hpends⟩ := dispatch_stopThenMatch hr hdma hwon hb hn hs hie hm
    exact ⟨u, hu, fun _ _ _ => hserved, hpends⟩
  case stop =>
    obtain ⟨dma, hdma⟩ : ∃ dma, dma = ((s.s i).transport == .dma) := ⟨_, rfl⟩
    obtain ⟨hl, -, -, -, hres, -⟩ := s.stopCounts_frame i (s.s i) dma
    refine ⟨dma, _, _, _, _, _, (s.stopCounts i (s.s i) dma).giveBack, hdma, rfl, rfl, rfl, rfl, rfl, ?_⟩
    rw [h.dispatch, slaveStop_eq h.role hdma, Bus.stopEnded, SCtx.stopEnded, hl, hres]
    rfl

end Sys2Proof.Machine

/-! # The proofs of the family 44_clock_solver.md: the pair the divider solver finds (R330 to R338) -/

namespace Sys2Proof.Machine

/-! ## Distance and rate (R331, R333) -/

theorem absDiff_of_le {a b : Nat} (h : a ≤ b) : absDiff a b = b - a := by
  rw [absDiff, Nat.sub_eq_zero_of_le h, Nat.zero_add]

theorem absDiff_of_ge {a b : Nat} (h : b ≤ a) : absDiff a b = a - b := by
  rw [absDiff, Nat.sub_eq_zero_of_le h, Nat.add_zero]

/-- R331: within a step the rate falls, weakly, as the sample grows. -/
theorem rate_antitone (clk step : Nat) {x y : Nat} (h : x ≤ y) : rate clk step y ≤ rate clk step x :=
  Nat.div_le_div_left (Nat.mul_le_mul_right 2 (Nat.mul_le_mul_left (step + 1) (Nat.succ_le_succ h)))
    (Nat.mul_pos (Nat.mul_pos (Nat.succ_pos step) (Nat.succ_pos x)) (Nat.succ_pos 1))

/-! ## The binary search within a step (R330) -/

/-- `lo` is the sample R330 searches for: the smallest one of the range whose rate is not above the target, or the last
one where every rate is above it. -/
structure FirstNotAbove (clk target smin smax step lo : Nat) : Prop where
  ge : smin ≤ lo
  le : lo ≤ smax
  reached : rate clk step lo ≤ target ∨ lo = smax
  above : ∀ x, smin ≤ x → x < lo → target < rate clk step x

section Step

variable {clk target smin smax step lo : Nat}

/-- A range of one sample leaves the search no choice. -/
theorem FirstNotAbove.single (h : smin = smax) : FirstNotAbove clk target smin smax step smin where
  ge := Nat.le_refl smin
  le := Nat.le_of_eq h
  reached := .inr h
  above _ hge hlt := absurd hlt (Nat.not_lt.mpr hge)

/-- R330: the sample found below one whose rate is not above the target is found in the whole range too. -/
theorem FirstNotAbove.extend_right {mid : Nat} (h : FirstNotAbove clk target smin mid step lo) (hmid : mid ≤ smax)
    (hrate : rate clk step mid ≤ target) : FirstNotAbove clk target smin smax step lo where
  ge := h.ge
  le := Nat.le_trans h.le hmid
  reached := .inl (h.reached.elim id fun heq => heq ▸ hrate)
  above := h.above

/-- R330: the sample found past one whose rate is above the target is found in the whole range too. -/
theorem FirstNotAbove.extend_left {mid : Nat} (h : FirstNotAbove clk target (mid + 1) smax step lo) (hmid : smin ≤ mid)
    (hrate : target < rate clk step mid) : FirstNotAbove clk target smin smax step lo where
  ge := Nat.le_trans (Nat.le_succ_of_le hmid) h.ge
  le := h.le
  reached := h.reached
  above x _ hlt :=
    match Nat.lt_or_ge mid x with
    | .inl hpast => h.above x hpast hlt
    | .inr hupto => Nat.lt_of_lt_of_le hrate (rate_antitone clk step hupto)

theorem searchSample_firstNotAbove {fuel : Nat} (hle : smin ≤ smax) (hfuel : smax - smin ≤ fuel) :
    FirstNotAbove clk target smin smax step (searchSample clk step target fuel smin smax) := by
  induction fuel generalizing smin smax with
  | zero => exact .single (by omega)
  | succ fuel ih =>
    rw [searchSample]
    by_cases hlt : smin < smax
    case neg =>
      rw [if_neg hlt]
      exact .single (by omega)
    case pos =>
      rw [if_pos hlt]
      by_cases hrate : rate clk step ((smin + smax) / 2) ≤ target
      · rw [if_pos hrate]
        exact (ih (by omega) (by omega)).extend_right (by omega) hrate
      · rw [if_neg hrate]
        exact (ih (by omega) (by omega)).extend_left (by omega) (Nat.lt_of_not_le hrate)

/-- R333: from `lo` on no sample is closer to the target than `lo`. -/
theorem FirstNotAbove.closest_from (h : FirstNotAbove clk target smin smax step lo) {x : Nat} (hx : lo ≤ x)
    (hmax : x ≤ smax) : absDiff (rate clk step lo) target ≤ absDiff (rate clk step x) target := by
  rcases h.reached with hr | rfl
  · have hrate := rate_antitone clk step hx
    rw [absDiff_of_le hr, absDiff_of_le (Nat.le_trans hrate hr)]
    omega
  · exact Nat.le_antisymm hmax hx ▸ Nat.le_refl _

/-- R333: before `lo` no sample is closer to the target than the one next to `lo`. -/
theorem FirstNotAbove.closest_before (h : FirstNotAbove clk target smin smax step lo) {x : Nat} (hmin : smin ≤ x)
    (hx : x < lo) : absDiff (rate clk step (lo - 1)) target ≤ absDiff (rate clk step x) target := by
  have hrate : rate clk step (lo - 1) ≤ rate clk step x := rate_antitone clk step (by omega)
  have hnear := Nat.le_of_lt (h.above (lo - 1) (by omega) (by omega))
  rw [absDiff_of_ge hnear, absDiff_of_ge (Nat.le_trans hnear hrate)]
  omega

end Step

/-! ## The candidate of a step (R333) -/

/-- R333: `c` is the first sample whose rate is not above the target, or the sample before it where that is strictly closer;
and `c.err` is its error, the smallest of its step. -/
structure Candidate.ClosestInStep (clk target smin smax : Nat) (c : Candidate) : Prop where
  ge : smin ≤ c.sample
  le : c.sample ≤ smax
  err_eq : c.err = absDiff (rate clk c.step c.sample) target
  least : ∀ x, smin ≤ x → x ≤ smax → c.err ≤ absDiff (rate clk c.step x) target
  chosen : ∃ lo, FirstNotAbove clk target smin smax c.step lo ∧
    ((c.sample = lo ∧ (smin < lo →
        absDiff (rate clk c.step lo) target ≤ absDiff (rate clk c.step (lo - 1)) target)) ∨
      (c.sample + 1 = lo ∧
        absDiff (rate clk c.step (lo - 1)) target < absDiff (rate clk c.step lo) target))

@[simp] theorem candidate_step (clk target smin smax step : Nat) : (candidate clk target smin smax step).step = step := by
  simp only [candidate]
  split <;> rfl

/-- R333: the sample before `lo`, where it is strictly closer. -/
theorem FirstNotAbove.closestInStep_before {clk target smin smax step lo : Nat}
    (h : FirstNotAbove clk target smin smax step lo) (hlt : smin < lo)
    (hcloser : absDiff (rate clk step (lo - 1)) target < absDiff (rate clk step lo) target) :
    Candidate.ClosestInStep clk target smin smax ⟨step, lo - 1, absDiff (rate clk step (lo - 1)) target⟩ where
  ge := Nat.le_sub_one_of_lt hlt
  le := Nat.le_trans (Nat.sub_le lo 1) h.le
  err_eq := rfl
  least x hmin hmax :=
    match Nat.lt_or_ge x lo with
    | .inl hx => h.closest_before hmin hx
    | .inr hx => Nat.le_trans (Nat.le_of_lt hcloser) (h.closest_from hx hmax)
  chosen := ⟨lo, h, .inr ⟨Nat.sub_add_cancel (Nat.one_le_of_lt hlt), hcloser⟩⟩

/-- R333: `lo` itself, where the sample before it is not strictly closer. -/
theorem FirstNotAbove.closestInStep_self {clk target smin smax step lo : Nat}
    (h : FirstNotAbove clk target smin smax step lo)
    (hclosest : smin < lo → absDiff (rate clk step lo) target ≤ absDiff (rate clk step (lo - 1)) target) :
    Candidate.ClosestInStep clk target smin smax ⟨step, lo, absDiff (rate clk step lo) target⟩ where
  ge := h.ge
  le := h.le
  err_eq := rfl
  least x hmin hmax :=
    match Nat.lt_or_ge x lo with
    | .inl hx => Nat.le_trans (hclosest (Nat.lt_of_le_of_lt hmin hx)) (h.closest_before hmin hx)
    | .inr hx => h.closest_from hx hmax
  chosen := ⟨lo, h, .inl ⟨rfl, hclosest⟩⟩

theorem candidate_closestInStep (clk target step : Nat) {smin smax : Nat} (hle : smin ≤ smax) :
    (candidate clk target smin smax step).ClosestInStep clk target smin smax := by
  have hlo : FirstNotAbove clk target smin smax step _ := searchSample_firstNotAbove hle (Nat.le_refl _)
  simp only [candidate]
  split
  next hbelow => exact hlo.closestInStep_before hbelow.1 hbelow.2
  next hnot => exact hlo.closestInStep_self fun hlt => Nat.le_of_not_lt fun hcloser => hnot ⟨hlt, hcloser⟩

/-! ## The best candidate (R330, R333) -/

/-- R333: the error of `b` is not above that of `c`, and below it where the step of `c` is the smaller one. -/
def Candidate.Beats (b c : Candidate) : Prop := b.err ≤ c.err ∧ (c.step < b.step → b.err < c.err)

theorem Candidate.Beats.refl (c : Candidate) : c.Beats c := ⟨Nat.le_refl _, fun h => absurd h (Nat.lt_irrefl _)⟩

/-- R333: what beats a candidate beats a later one that is no closer. -/
theorem Candidate.Beats.trans_later {a b c : Candidate} (h : b.Beats a) (hstep : a.step < c.step)
    (herr : a.err ≤ c.err) : b.Beats c :=
  ⟨Nat.le_trans h.1 herr, fun hlt => Nat.lt_of_lt_of_le (h.2 (Nat.lt_trans hstep hlt)) herr⟩

/-- R330: of candidates whose steps ascend, one that beats them all is left. -/
theorem foldl_better (a : Candidate) (cs : List Candidate) (hasc : (a :: cs).Pairwise (·.step < ·.step)) :
    ∃ b ∈ a :: cs, cs.foldl better (.some a) = .some b ∧ ∀ c ∈ a :: cs, b.Beats c := by
  induction cs generalizing a with
  | nil => exact ⟨a, List.mem_cons_self, rfl, List.forall_mem_cons.mpr ⟨.refl a, nofun⟩⟩
  | cons c cs ih =>
    obtain ⟨hfirst, hrest⟩ := List.pairwise_cons.mp hasc
    obtain ⟨-, hrest'⟩ := List.pairwise_cons.mp hrest
    rw [List.foldl_cons, better]
    by_cases hcloser : c.err < a.err
    case pos =>
      rw [if_pos hcloser]
      obtain ⟨b, hmem, hb, hbeats⟩ := ih c hrest
      obtain ⟨hbc, -⟩ := hbeats c List.mem_cons_self
      have hba : b.err < a.err := Nat.lt_of_le_of_lt hbc hcloser
      exact ⟨b, List.mem_cons_of_mem a hmem, hb,
        List.forall_mem_cons.mpr ⟨⟨Nat.le_of_lt hba, fun _ => hba⟩, hbeats⟩⟩
    case neg =>
      rw [if_neg hcloser]
      obtain ⟨b, hmem, hb, hbeats⟩ := ih a <|
        List.pairwise_cons.mpr ⟨fun d hd => hfirst d (List.mem_cons_of_mem c hd), hrest'⟩
      obtain ⟨hba, hbrest⟩ := List.forall_mem_cons.mp hbeats
      have hbc : b.Beats c := hba.trans_later (hfirst c List.mem_cons_self) (Nat.le_of_not_lt hcloser)
      exact ⟨b, List.mem_cons.mpr ((List.mem_cons.mp hmem).imp_right (List.mem_cons_of_mem c)), hb,
        List.forall_mem_cons.mpr ⟨hba, List.forall_mem_cons.mpr ⟨hbc, hbrest⟩⟩⟩

theorem foldl_better_none {cs : List Candidate} (hne : cs ≠ []) (hasc : cs.Pairwise (·.step < ·.step)) :
    ∃ b ∈ cs, cs.foldl better .none = .some b ∧ ∀ c ∈ cs, b.Beats c :=
  match cs with
  | [] => absurd rfl hne
  | a :: cs => foldl_better a cs hasc

theorem Params.wf_ranges {p : Params} (h : p.wf = true) :
    p.stepMin.toNat ≤ p.stepMax.toNat ∧ p.sampleMin.toNat ≤ p.sampleMax.toNat := by
  simp only [Params.wf, Bool.and_eq_true, decide_eq_true_eq, BitVec.le_def] at h
  obtain ⟨⟨⟨⟨⟨⟨⟨-, hstep⟩, hsample⟩, -⟩, -⟩, -⟩, -⟩, -⟩ := h
  exact ⟨hstep, hsample⟩

/-- What the solver finds: a step of the range, the closest sample within it, and an error that beats the candidate of
every step. -/
theorem solve_closest {p : Params} (clk target : Nat) (hwf : p.wf = true) :
    ∃ best, solve p clk target = .some best ∧ (p.stepMin.toNat ≤ best.step ∧ best.step ≤ p.stepMax.toNat) ∧
      best.ClosestInStep clk target p.sampleMin.toNat p.sampleMax.toNat ∧
      ∀ st, p.stepMin.toNat ≤ st → st ≤ p.stepMax.toNat →
        best.Beats (candidate clk target p.sampleMin.toNat p.sampleMax.toNat st) := by
  obtain ⟨hstep, hsample⟩ := Params.wf_ranges hwf
  have hasc : ((List.range' p.stepMin.toNat (p.stepMax.toNat + 1 - p.stepMin.toNat)).map
      (candidate clk target p.sampleMin.toNat p.sampleMax.toNat)).Pairwise (·.step < ·.step) :=
    List.pairwise_map.mpr <| (List.pairwise_lt_range' 1).imp fun h => by rwa [candidate_step, candidate_step]
  obtain ⟨best, hmem, hbest, hbeats⟩ :=
    foldl_better_none (List.ne_nil_of_length_pos (by rw [List.length_map, List.length_range']; omega)) hasc
  obtain ⟨st, hst, rfl⟩ := List.mem_map.mp hmem
  have hrange := List.mem_range'_1.mp hst
  refine ⟨_, List.foldl_map.symm.trans hbest, ?_, candidate_closestInStep clk target st hsample, fun st hmin hmax =>
    hbeats _ (List.mem_map_of_mem (List.mem_range'_1.mpr (by omega)))⟩
  rw [candidate_step]
  omega

/-- Settles O22: the pair found beats the candidate of every step, which has the smallest error of its step. -/
theorem solverFindsClosestRate : Obligations.SolverFindsClosestRate := by
  unfold Obligations.SolverFindsClosestRate
  intro p clk target hwf
  obtain ⟨best, hsolve, hrange, ⟨hge, hle, herr, -, lo, hlo, hchosen⟩, hbeats⟩ := solve_closest clk target hwf
  refine ⟨best, hsolve, hrange, ⟨hge, hle⟩, fun st sa hst hst' hsa hsa' => ?_,
    lo, hlo.ge, hlo.le, hlo.reached, hlo.above, hchosen⟩
  obtain ⟨hnot, hless⟩ := hbeats st hst hst'
  have hleast := (candidate_closestInStep clk target st (Nat.le_trans hge hle)).least sa hsa hsa'
  rw [candidate_step] at hless hleast
  rw [← herr]
  exact ⟨Nat.le_trans hnot hleast, fun hlt => Nat.lt_of_lt_of_le (hless hlt) hleast⟩

/-- Settles O23: a target the step can bracket lies between the rates of `lo` and of the sample before it, and one of
the two is the sample found. -/
theorem solverErrorBound : Obligations.SolverErrorBound := by
  unfold Obligations.SolverErrorBound
  intro p clk target best hwf hsolve hslow hfast
  obtain ⟨_, hsolve', -, ⟨hge, hle, -, -, lo, hlo, hchosen⟩, -⟩ := solve_closest clk target hwf
  obtain rfl := Option.some.inj (hsolve.symm.trans hsolve')
  refine ⟨fun hsome => ?several, fun hone => ?one⟩
  case several =>
    have hreached : rate clk best.step lo ≤ target := hlo.reached.elim id fun h => h ▸ hslow
    rcases hchosen with ⟨hsample, -⟩ | ⟨hsample, -⟩
    · rw [hsample, absDiff_of_le hreached]
      rcases Nat.eq_or_lt_of_le hlo.ge with hmin | hmin
      · rw [← hmin] at hreached ⊢
        exact .inr ⟨hsome, by omega⟩
      · have hnear := hlo.above (lo - 1) (by omega) (by omega)
        exact .inl ⟨hmin, by omega⟩
    · have hnear := hlo.above best.sample hge (by omega)
      rw [← hsample] at hreached
      exact .inr ⟨Nat.lt_of_lt_of_le (by omega) hlo.le, by rw [absDiff_of_ge (Nat.le_of_lt hnear)]; omega⟩
  case one =>
    have hmin : best.sample = p.sampleMin.toNat := Nat.le_antisymm (hone ▸ hle) hge
    rw [hmin]
    exact Nat.le_antisymm (hone ▸ hslow) hfast

end Sys2Proof.Machine

/-! # The proofs of the family 46_blocking.md: the wake and the timeout of a suspended command (R386 to R390, R411, R474) -/

namespace Sys2Proof.Machine

/-! ## What a caller's suspension and its answer stand in (R51, R386, R388, R411) -/

/-- The role of an instance, its suspended command, the `blocking` flags of its contexts, and the port. -/
structure Caller where
  role : Role
  wait : Option Word
  master : Bool
  slave : Bool
  port : Port

def State.caller (s : State) (i : BusId) : Caller :=
  ⟨(s.bus i).role, (s.bus i).wait, (s.bus i).m.blocking, (s.bus i).s.blocking, s.port⟩

section Caller

variable {i : BusId} {s t : State}

theorem State.caller_of_bus (hb : t.bus i = s.bus i) (hp : t.port = s.port) : t.caller i = s.caller i := by
  rw [State.caller, hb, hp, State.caller]

theorem State.wait_of_caller (h : t.caller i = s.caller i) : (t.bus i).wait = (s.bus i).wait := congrArg Caller.wait h

theorem State.role_of_caller (h : t.caller i = s.caller i) : (t.bus i).role = (s.bus i).role := congrArg Caller.role h

theorem State.blocking_of_caller (h : t.caller i = s.caller i) : (t.ctx i).blocking = (s.ctx i).blocking := by
  injection h with hr _ hm hs
  simp only [State.ctx_eq, Bus.ctx, hr]
  cases (s.bus i).role
  case slave => exact hs
  all_goals exact hm

theorem State.port_of_caller (h : t.caller i = s.caller i) : t.port = s.port := congrArg Caller.port h

/-! ### Updates that leave it alone -/

@[simp] theorem State.modCore_caller (s : State) (f : BusCore → BusCore) : (s.modCore i f).caller i = s.caller i := by
  simp [State.caller]

@[simp] theorem State.setPhase_caller (s : State) (p : Phase) : (s.setPhase i p).caller i = s.caller i := by
  simp [State.caller]

@[simp] theorem State.notify_caller (s : State) (e : Event) : (s.notify i e).caller i = s.caller i := by
  simp [State.caller]

@[simp] theorem State.postM_caller (s : State) : (s.modBus i .postM).caller i = s.caller i := by simp [State.caller]

@[simp] theorem State.postS_caller (s : State) : (s.modBus i .postS).caller i = s.caller i := by simp [State.caller]

@[simp] theorem State.modChan_caller (s : State) (c : Chan) (f : DmaChan → DmaChan) :
    (s.modChan c f).caller i = s.caller i := rfl

@[simp] theorem State.logDma_caller (s : State) (x : DmaCall) : (s.logDma x).caller i = s.caller i := rfl

@[simp] theorem State.store_caller (s : State) (a : Word) (v : Byte) : (s.store a v).caller i = s.caller i := rfl

@[simp] theorem State.drawCb_caller (s : State) : s.drawCb.2.caller i = s.caller i := by
  unfold State.drawCb
  split <;> rfl

@[simp] theorem State.ite_caller (p : Prop) [Decidable p] (s t : State) :
    (if p then s else t).caller i = if p then s.caller i else t.caller i := 
  apply_ite (fun u : State => u.caller i) p s t

/-- An update of a context that keeps `blocking`. -/
theorem State.modM_caller {f : MCtx → MCtx} (hf : ∀ m, (f m).blocking = m.blocking) :
    (s.modM i f).caller i = s.caller i := by
  simp [State.caller, hf]

theorem State.modS_caller {f : SCtx → SCtx} (hf : ∀ x, (f x).blocking = x.blocking) :
    (s.modS i f).caller i = s.caller i := by
  simp [State.caller, hf]

theorem State.modMX_caller {f : Xfer → Xfer} (hf : ∀ x, (f x).blocking = x.blocking) :
    (s.modMX i f).caller i = s.caller i := State.modM_caller fun m => hf m.toXfer

theorem State.modSX_caller {f : Xfer → Xfer} (hf : ∀ x, (f x).blocking = x.blocking) :
    (s.modSX i f).caller i = s.caller i := State.modS_caller fun x => hf x.toXfer

theorem SeqOnly.caller (h : SeqOnly i s t) : t.caller i = s.caller i := by
  simp only [State.caller, h.role, h.wait, h.master, h.slave, h.port]

@[simp] theorem seqStop_caller (s : State) : (seqStop i s).2.caller i = s.caller i := (seqStop_only i s).caller

@[simp] theorem dmaStop_caller (c : Chan) (s : State) : (dmaStop c s).caller i = s.caller i := rfl

@[simp] theorem dmaStopIf_caller (x : Xfer) (s : State) : (dmaStopIf x s).caller i = s.caller i := by simp [dmaStopIf]

@[simp] theorem dmaBulk_caller (c : Chan) (a b : Endpoint) (n : Word) (d : DmaDir) (r : Dir) (s : State) :
    (dmaBulk i c a b n d r s).caller i = s.caller i := by
  simp [dmaBulk, dmaStart, dmaInstall, dmaConfigure]

/-! ### The master's events -/

theorem Xfer.settleResult_blocking (x : Xfer) : x.settleResult.blocking = x.blocking := by rw [Xfer.settleResult_eq]

theorem Xfer.stopFailed_blocking (x : Xfer) (st : Word) : (x.stopFailed st).blocking = x.blocking := by
  rw [Xfer.stopFailed_eq]

theorem Xfer.dmaSettled_blocking (x : Xfer) : x.dmaSettled.blocking = x.blocking := by
  unfold Xfer.dmaSettled
  split <;> rfl

@[simp] theorem masterIdle_caller (s : State) : (masterIdle i s).caller i = s.caller i := by
  rw [masterIdle, State.setPhase_caller, State.logDma_caller]
  exact State.modMX_caller fun _ => rfl

@[simp] theorem masterClose_caller (r : Result) (s : State) : (masterClose i r s).caller i = s.caller i := by
  rw [masterClose, State.postM_caller, masterIdle_caller]
  exact State.modMX_caller fun _ => rfl

@[simp] theorem masterEndStop_caller (s : State) : (masterEndStop i s).caller i = s.caller i := by
  have stopped (t : State) (st : Word) : (t.modMX i (·.stopFailed st)).caller i = t.caller i :=
    State.modMX_caller fun x => x.stopFailed_blocking st
  simp [masterEndStop, stopped]

@[simp] theorem masterEnd_caller (s : State) : (masterEnd i s).caller i = s.caller i := by
  have settled (t : State) : (t.modMX i fun x => x.unsetBufs.settleResult).caller i = t.caller i :=
    State.modMX_caller fun x => x.unsetBufs.settleResult_blocking
  simp [masterEnd, settled]

@[simp] theorem masterErrorExit_caller (r : Result) (s : State) : (masterErrorExit i r s).caller i = s.caller i := by
  simp [masterErrorExit]

@[simp] theorem masterAbort_caller (s : State) : (masterAbort i s).caller i = s.caller i := by simp [masterAbort]

@[simp] theorem masterStore_caller (v : Byte) (s : State) : (masterStore i v s).caller i = s.caller i :=
  State.modMX_caller (s := s.store _ v) fun _ => rfl

@[simp] theorem masterSendStep_caller (s : State) : (masterSendStep i s).caller i = s.caller i := by
  have taken (t : State) (n : Word) : (t.modMX i (·.advanceTx n)).caller i = t.caller i :=
    State.modMX_caller fun _ => rfl
  simp [masterSendStep, taken]

@[simp] theorem masterRecvStep_caller (s : State) : (masterRecvStep i s).caller i = s.caller i := by
  simp [masterRecvStep]

@[simp] theorem masterHandler_caller (s : State) : (masterHandler i s).caller i = s.caller i := by
  simp [masterHandler, masterArbLost, masterNack, masterByte]

theorem masterDispatch_caller (s : State) : (masterDispatch i s).caller i = s.caller i := by
  have settled (t : State) : (t.modMX i .dmaSettled).caller i = t.caller i :=
    State.modMX_caller Xfer.dmaSettled_blocking
  simp [masterDispatch, masterDmaError, masterDmaDone, settled]

/-! ### The slave's events -/

theorem SCtx.dmaSettled_blocking (x : SCtx) (left : Word) : (x.dmaSettled left).blocking = x.blocking := by
  unfold SCtx.dmaSettled
  split
  · split <;> rfl
  · split <;> rfl
  · rfl

theorem SCtx.enterTransfer_blocking (x : SCtx) : x.enterTransfer.blocking = x.blocking := by rw [x.enterTransfer_eq]

theorem slaveLend_caller {m : Bool} {d : Dir} {buf len : Word} (e : slaveLend i m d buf len s = .next t) :
    t.caller i = s.caller i := by
  unfold slaveLend at e
  split at e
  · cases e
  · cases e
    exact State.modS_caller fun x => x.lendSet_blocking d buf len

theorem callbackLend_caller {m : Bool} {d : Dir} {l : Lend} (e : callbackLend i m d l s = .next t) :
    t.caller i = s.caller i := by
  unfold callbackLend at e
  split at e
  · cases e
    rfl
  · split at e
    · cases e
    · exact slaveLend_caller e

theorem applyCb_caller {m : Bool} {d : CbDraw} (e : applyCb i m d s = .next t) : t.caller i = s.caller i := by
  cases d with
  | nothing =>
    cases e
    rfl
  | setTx l => exact callbackLend_caller e
  | setRx l => exact callbackLend_caller e
  | setTxRx l k | setRxTx k l =>
    obtain ⟨u, h1, h2⟩ := Res.bind_eq_next e
    exact (callbackLend_caller h2).trans (callbackLend_caller h1)

theorem slaveCallback_caller {v : Event} (e : slaveCallback i v s = .next t) : t.caller i = s.caller i := by
  rw [slaveCallback_eq] at e
  split at e
  · cases e
    rfl
  · simpa using applyCb_caller e

theorem slaveRecordError_caller {r : Result} (e : slaveRecordError i r s = .next t) : t.caller i = s.caller i := by
  have recorded (u : State) : (u.modSX i fun x => { x with lastResult := r }).caller i = u.caller i :=
    State.modSX_caller fun _ => rfl
  obtain ⟨u, h1, h2⟩ := Res.bind_eq_next e
  cases h2
  simpa [recorded] using slaveCallback_caller h1

theorem slaveTxNext_caller (e : slaveTxNext i s = .next t) : t.caller i = s.caller i := by
  have taken (u : State) (n : Word) : (u.modSX i (·.advanceTx n)).caller i = u.caller i :=
    State.modSX_caller fun _ => rfl
  obtain ⟨u, h1, h2⟩ := Res.bind_eq_next e
  have asked : u.caller i = s.caller i := by
    split at h1
    · exact slaveCallback_caller h1
    · cases h1
      rfl
  split at h2
  · cases h2
    simpa [slaveSendByte, taken] using asked
  · obtain ⟨v, h3, h4⟩ := Res.bind_eq_next h2
    cases h4
    simpa [slaveRecordError_caller h3] using asked

theorem slaveRecvByte_caller (e : slaveRecvByte i s = .next t) : t.caller i = s.caller i := by
  have placed (u : State) (n : Word) : (u.modSX i (·.advanceRx n)).caller i = u.caller i :=
    State.modSX_caller fun _ => rfl
  unfold slaveRecvByte at e
  dsimp only at e
  split at e
  · cases e
    simp [placed]
  · simpa using slaveRecordError_caller e

theorem slaveByteEvent_caller (e : slaveByteEvent i s = .next t) : t.caller i = s.caller i := by
  rw [slaveByteEvent_eq] at e
  split at e
  · split at e
    · cases e
      exact s.modCore_caller _
    · split at e
      · cases e
        exact s.modCore_caller _
      · unfold slaveByte at e
        split at e
        · exact slaveTxNext_caller e
        · exact slaveRecvByte_caller e
  · cases e
    rfl

@[simp] theorem slaveDmaSettle_caller (s : State) : (slaveDmaSettle i s).caller i = s.caller i := by
  have settled (left : Word) : (s.modS i fun x => { x.dmaSettled left with unsettled := .none }).caller i = s.caller i :=
    State.modS_caller fun x => x.dmaSettled_blocking left
  simp [slaveDmaSettle, settled]

theorem slaveDmaArm_caller (e : slaveDmaArm i s = .next t) : t.caller i = s.caller i := by
  have configured (u : State) (d : Dir) : (u.modS i fun x => { x with unsettled := .some d }).caller i = u.caller i :=
    State.modS_caller fun _ => rfl
  have restarted : (slaveDmaRestart i s).caller i = s.caller i := by simp [slaveDmaRestart]
  unfold slaveDmaArm at e
  dsimp only at e
  split at e
  · simpa [slaveDmaBulk, configured, restarted] using slaveTxNext_caller e
  · cases e
    simp [slaveDmaBulk, configured, restarted]

theorem slaveBegin_caller (e : slaveBegin i s = .next t) : t.caller i = s.caller i := by
  unfold slaveBegin at e
  split at e
  · simpa using slaveTxNext_caller e
  · cases e
    exact s.modCore_caller _

theorem slaveAddrMatch_caller (e : slaveAddrMatch i s = .next t) : t.caller i = s.caller i := by
  have entered (u : State) : (u.modS i .enterTransfer).caller i = u.caller i :=
    State.modS_caller SCtx.enterTransfer_blocking
  have turned (u : State) (f : SCtx → Dir) : (u.modS i fun x => { x with curDir := f x }).caller i = u.caller i :=
    State.modS_caller fun _ => rfl
  unfold slaveAddrMatch at e
  dsimp only at e
  split at e
  · obtain ⟨u, h1, h2⟩ := Res.bind_eq_next e
    rw [slaveDmaArm_caller h2, slaveCallback_caller h1, turned, State.setPhase_caller, entered, State.modCore_caller]
  · obtain ⟨u, h1, h2⟩ := Res.bind_eq_next e
    rw [slaveBegin_caller h2, slaveCallback_caller h1, turned, State.setPhase_caller, entered, State.modCore_caller]

@[simp] theorem slaveIdle_caller (s : State) : (slaveIdle i s).caller i = s.caller i := by
  have ended : (s.modSX i fun x => { x with idle := true }).caller i = s.caller i := State.modSX_caller fun _ => rfl
  simp [slaveIdle, ended]

theorem slaveAbort_caller (s : State) : (slaveAbort i s).caller i = s.caller i := by
  have aborted (u : State) :
      (u.modS i fun x => (x.giveBack.modX fun y => { y with lastResult := .aborted }).leaveTransfer).caller i = u.caller i :=
    State.modS_caller fun _ => rfl
  simp [slaveAbort, aborted]

@[simp] theorem slaveDmaEnd_caller (s : State) : (slaveDmaEnd i s).caller i = s.caller i := by simp [slaveDmaEnd]

@[simp] theorem slaveTeardown_caller (s : State) : (slaveTeardown i s).caller i = s.caller i := by
  have given (u : State) : (u.modS i .giveBack).caller i = u.caller i := State.modS_caller fun _ => rfl
  simp [slaveTeardown, given]

@[simp] theorem slaveEndIdle_caller (s : State) : (slaveEndIdle i s).caller i = s.caller i := by simp [slaveEndIdle]

theorem slaveStop_caller (s : State) : (slaveStop i s).caller i = s.caller i := by
  have left (u : State) : (u.modS i fun x => (x.modX (·.settleResult)).leaveTransfer).caller i = u.caller i :=
    State.modS_caller fun x => x.settleResult_blocking
  simp [slaveStop, left]

theorem slaveHandler_caller (e : slaveHandler i s = .next t) : t.caller i = s.caller i := by
  obtain ⟨v, h12, h3⟩ := Res.bind_eq_next e
  obtain ⟨u, h1, h2⟩ := Res.bind_eq_next h12
  have byte : u.caller i = s.caller i := by simpa using slaveByteEvent_caller h1
  have stop : v.caller i = u.caller i := by
    cases h2
    simp [slaveStop_caller]
  have matched : t.caller i = v.caller i := by
    unfold slaveMatchEvent at h3
    split at h3
    · exact slaveAddrMatch_caller h3
    · cases h3
      rfl
  exact matched.trans (stop.trans byte)

theorem slaveDispatch_caller (e : slaveDispatch i s = .next t) : t.caller i = s.caller i := by
  unfold slaveDispatch at e
  split at e
  · simpa using slaveRecordError_caller e
  · split at e
    · cases e
      simp [slaveDmaDone]
    · exact slaveHandler_caller e

/-- R447, R460, R461: no handler resumes a caller or answers one. -/
theorem dispatch_caller (e : dispatch i s = .next t) : t.caller i = s.caller i := by
  unfold dispatch at e
  split at e
  · split at e
    · cases e
      exact masterDispatch_caller s
    · exact slaveDispatch_caller e
    · cases e
      rfl
  · cases e
    rfl

end Caller

/-- A dispatch keeps the caller of every instance, its own and the others. -/
theorem dispatch_keepsCaller {i j : BusId} {s t : State} (e : dispatch j s = .next t) : t.caller i = s.caller i := by
  have own := dispatch_caller e
  by_cases h : i = j
  · rw [h]
    exact own
  · exact State.caller_of_bus ((dispatch_frame e).others i h) (State.port_of_caller own)

end Sys2Proof.Machine


namespace Sys2Proof.Machine

/-! ## Operations beside a suspended command (R104 (3)) -/

/-- All that an operation on an instance with a suspended command can do. -/
inductive BesideWaiting (i : BusId) (s : State) : State → Prop where
  | turnedAway (r : Result) : BesideWaiting i s (s.setRet r)
  | masterAbort (hr : (s.bus i).role = .master) :
    BesideWaiting i s ((if (s.m i).idle then s else masterAbort i s).setRet .success)
  | slaveAbort (hr : (s.bus i).role = .slave) :
    BesideWaiting i s ((if (s.s i).quiet then s else slaveAbort i s).setRet .success)
  | lent (d : Dir) (buf len : Word) : BesideWaiting i s ((s.modS i (·.lendSet d buf len)).setRet .success)
  | answered {u : State} (hu : u.bus i = s.bus i) (v : Word) (r : Result) :
    BesideWaiting i s ((u.giveOut0 i v).setRet r)
  | callback (cb : Option Word) : BesideWaiting i s ((s.modCtx i fun x => { x with cb := cb }).setRet .success)
  | dispatched {u : State} (e : dispatch i s = .next u) : BesideWaiting i s (u.setRet .success)

section BesideWaiting

variable {i : BusId} {s t : State}

/-- An operation that a suspended command keeps out is turned away. -/
theorem BesideWaiting.keptOut {k : OpClass} {f : State → Res} (hw : (s.bus i).wait.isSome = true)
    (e : admitted k i s f = .next t) (hk : k.whileWaiting = false) : BesideWaiting i s t := by
  rcases admitted_next e with ⟨r, -, rfl⟩ | ⟨hrun, -⟩
  · exact .turnedAway r
  · rw [Bus.turnAway_wait hk hrun] at hw
    cases hw

theorem BesideWaiting.admitted {k : OpClass} {f : State → Res}
    (hf : (s.bus i).turnAway k = .none → f s = .next t → BesideWaiting i s t) (e : admitted k i s f = .next t) :
    BesideWaiting i s t := by
  rcases admitted_next e with ⟨r, -, rfl⟩ | ⟨hrun, h⟩
  · exact .turnedAway r
  · exact hf hrun h

theorem BesideWaiting.slaveSetBuf {d : Dir} (e : slaveSetBuf i d s = .next t) : BesideWaiting i s t := by
  refine .admitted (fun _ e => ?_) e
  rcases withBuffer_next e with rfl | ⟨-, e⟩
  · exact .turnedAway _
  · obtain ⟨u, h1, h2⟩ := Res.bind_eq_next e
    cases h2
    unfold slaveLend at h1
    split at h1
    · cases h1
    · cases h1
      exact .lent ..

theorem masterDmaRemaining_bus (s : State) : (masterDmaRemaining i s).2.bus i = s.bus i := by
  unfold masterDmaRemaining
  dsimp only
  split <;> rfl

theorem exec_besideWaiting {x : Instr} (hw : (s.bus x.inst).wait.isSome = true) (e : exec x s = .next t) :
    BesideWaiting x.inst s t := by
  cases x <;>
    simp only [exec, initAdmitted, execInitMaster, execInitSlave, execMSend, execMRecv, masterStart, execMSendBlk,
      execMRecvBlk, masterStartBlk, execSSend, execSRecv, slaveStart, execSSendBlk, execSRecvBlk, slaveStartBlk,
      execSeqStart, execSeqRstart, execSeqWaitReady, execSeqTxByte, execSeqStop, execSeqAddress, sequencer, execPStart,
      execPRstart, execPStop, execPSetDir, execPSetAck, execPWriteData, execPClearFlag, execPIntEnable, execPIntDisable,
      execPModuleEnable, execPModuleDisable, execPSetDmareq, primitive] at e
  case mAbort i =>
    refine .admitted (fun hk e => ?_) e
    cases e
    exact .masterAbort (Bus.turnAway_master (.inr rfl) hk)
  case sAbort i =>
    refine .admitted (fun hk e => ?_) e
    cases e
    exact .slaveAbort (eq_of_beq (Bus.turnAway_role (by decide) hk).2)
  case mGetStatus i =>
    refine .admitted (fun hk e => ?_) e
    cases e
    refine .answered ?_ ..
    split
    · rfl
    · split
      · exact masterDmaRemaining_bus s
      · rfl
  case sGetStatus i =>
    refine .admitted (fun hk e => ?_) e
    cases e
    refine .answered ?_ ..
    dsimp only
    split <;> rfl
  case sSetTxBuf | sSetRxBuf => exact .slaveSetBuf e
  case setCallback i b =>
    refine .admitted (fun _ e => ?_) e
    cases e
    exact .callback _
  case getRate i =>
    refine .admitted (fun _ e => ?_) e
    cases e
    exact .answered rfl ..
  case irqEntry i =>
    refine .admitted (fun _ e => ?_) e
    obtain ⟨u, h1, h2⟩ := Res.bind_eq_next e
    cases h2
    exact .dispatched h1
  all_goals exact .keptOut hw e rfl

/-- No operation ends a suspension. -/
theorem BesideWaiting.wait (h : BesideWaiting i s t) : (t.bus i).wait = (s.bus i).wait := by
  cases h with
  | turnedAway r => rfl
  | masterAbort hr =>
    rw [State.setRet_bus]
    split
    · rfl
    · exact State.wait_of_caller (masterAbort_caller s)
  | slaveAbort hr =>
    rw [State.setRet_bus]
    split
    · rfl
    · exact State.wait_of_caller (slaveAbort_caller s)
  | lent d buf len => simp
  | answered hu v r => simp [State.giveOut0, hu]
  | callback cb => simp
  | @dispatched u e => exact State.wait_of_caller (t := u) (dispatch_caller e)

end BesideWaiting

theorem exec_keepsWait {x : Instr} {i : BusId} {s t : State} (hw : (s.bus i).wait.isSome = true)
    (e : exec x s = .next t) : (t.bus i).wait = (s.bus i).wait := by
  by_cases h : i = x.inst
  · subst h
    exact (exec_besideWaiting hw e).wait
  · rw [(exec_frame e).others i h]

/-! ## A posted caller that is not awake yet (R388, R390) -/

/-- The transfer of the suspended command has ended: nothing is in flight and no event of its channel is pending. -/
structure Posted (i : BusId) (s : State) : Prop where
  due : (s.bus i).wakeDue = true
  role : (s.bus i).role ≠ .none
  idle : (s.ctx i).idle = true
  ended : (s.ctx i).lastResult ≠ .busy
  left : (s.bus i).role = .slave → (s.s i).inProgress = false
  dma : noDmaEvent i s

section Posted

variable {i : BusId} {s t : State}

theorem Bus.wakeDue_iff (b : Bus) : b.wakeDue = true ↔ b.wait.isSome = true ∧ b.sem ≠ 0 := by simp [Bus.wakeDue]

/-- The semaphore of a suspended command is posted exactly when its transfer has ended. -/
theorem Bus.waitOk_suspended {b : Bus} (h : b.waitOk = true) (hw : b.wait.isSome = true) :
    b.role ≠ .none ∧ (b.ctx.idle = true ↔ b.sem ≠ 0) := by
  obtain ⟨v, hv⟩ := Option.isSome_iff_exists.mp hw
  simp only [Bus.waitOk, hv, Option.isNone_some, Bool.false_or, Bool.and_eq_true, bne_iff_ne, beq_iff_eq] at h
  obtain ⟨⟨-, ⟨hr, -⟩, hidle⟩, -⟩ := h
  exact ⟨hr, by rw [← hidle, bne_iff_ne]⟩

theorem Bus.endedOk_idle {b : Bus} (h : b.endedOk = true) (hw : b.wait.isSome = true) (hidle : b.ctx.idle = true) :
    b.ctx.lastResult ≠ .busy ∧ (b.role = .slave → b.s.inProgress = false) := by
  obtain ⟨v, hv⟩ := Option.isSome_iff_exists.mp hw
  simp only [Bus.endedOk, hv, hidle, Option.isNone_some, Bool.not_true, Bool.false_or, Bool.and_eq_true, Bool.or_eq_true,
    bne_iff_ne, Bool.not_eq_true'] at h
  exact ⟨h.1, fun hr => (h.2.resolve_left (not_not_intro hr)).1⟩

/-- An idle master, and a slave in no transfer, uses no channel. -/
theorem Bus.usesChan_free {b : Bus} (hidle : b.ctx.idle = true) (hleft : b.role = .slave → b.s.inProgress = false)
    (c : Chan) : b.usesChan c = false := by
  unfold Bus.usesChan
  split
  · rfl
  · rename_i hr
    rw [b.ctx_master hr] at hidle
    rw [hidle, Bool.not_true, Bool.and_false]
  · rename_i hr
    rw [hleft hr, Bool.and_false]

/-- The channel of an instance that uses none has no event pending. -/
theorem Inv.noDmaEvent (h : Inv s) (hfree : ∀ c, (s.bus i).usesChan c = false) : noDmaEvent i s := by
  intro ho
  have dead : ¬(s.chan (s.ctx i).dmaChannel).live = true := by
    intro hlive
    obtain ⟨j, hj, huses, -⟩ := h.chan _ hlive
    obtain rfl : i = j := Option.some.inj (ho.symm.trans hj)
    rw [hfree] at huses
    cases huses
  simp only [DmaChan.live, Bool.or_eq_true, not_or, Bool.not_eq_true] at dead
  exact ⟨dead.1.2, dead.2⟩

theorem Inv.posted (h : Inv s) (hw : (s.bus i).wait.isSome = true) (hs : (s.bus i).sem ≠ 0) : Posted i s := by
  obtain ⟨hr, hposted⟩ := Bus.waitOk_suspended (h.waiting i) hw
  have hidle := hposted.mpr hs
  obtain ⟨hres, hleft⟩ := Bus.endedOk_idle (h.ended i) hw hidle
  exact
    { due := (Bus.wakeDue_iff _).mpr ⟨hw, hs⟩
      role := hr
      idle := hidle
      ended := hres
      left := hleft
      dma := h.noDmaEvent (Bus.usesChan_free hidle hleft) }

/-! ### A dispatch before the wake changes no result -/

/-- Without a transfer a byte event only touches the core. -/
theorem slaveByteEvent_noTransfer (h : (s.s i).inProgress = false) : ∃ f, slaveByteEvent i s = .next (s.modCore i f) := by
  rw [slaveByteEvent_eq, h]
  by_cases hb : (s.core i).byteEvent
  · exact ⟨_, by rw [if_pos hb, if_pos rfl, slaveSpurious]⟩
  · exact ⟨id, by rw [if_neg hb]; exact congrArg _ (s.setBus_self i).symm⟩

/-- A stop that finds the context idle posts nobody, and a result that is not BUSY stays. -/
theorem slaveStop_idle (hr : (s.bus i).role = .slave) (hidle : (s.s i).idle = true) (hres : (s.s i).lastResult ≠ .busy) :
    ((slaveStop i s).bus i).sem = (s.bus i).sem ∧ ((slaveStop i s).s i).lastResult = (s.s i).lastResult := by
  obtain ⟨-, -, -, -, hkept, -⟩ := s.stopCounts_frame i (s.s i) ((s.s i).transport == .dma)
  have idle : (s.bus i).s.idle = true := hidle
  rw [slaveStop_eq hr rfl, State.setBus_s, State.setBus_bus_same]
  cases (s.s i).cb <;>
    simp [Bus.called, Bus.stopEnded, SCtx.stopEnded, idle, hkept, Result.orElse, hres]

/-- A stop leaves a posted caller posted, and its result as it is. -/
theorem slaveStopEvent_posted (hr : (s.bus i).role = .slave) (hdue : (s.bus i).wakeDue = true)
    (hidle : (s.s i).idle = true) (hres : (s.s i).lastResult ≠ .busy) (e : slaveStopEvent i s = .next t) :
    (t.bus i).wakeDue = true ∧ (t.s i).lastResult = (s.s i).lastResult := by
  cases e
  split
  · obtain ⟨hsem, hkept⟩ := slaveStop_idle hr hidle hres
    rw [Bus.wakeDue, State.wait_of_caller (slaveStop_caller s), hsem]
    exact ⟨hdue, hkept⟩
  · exact ⟨hdue, rfl⟩

/-- With nothing in flight the byte event only touches the core, the stop changes no result, and the match waits. -/
theorem slaveHandler_posted (hr : (s.bus i).role = .slave) (hdue : (s.bus i).wakeDue = true) (hidle : (s.s i).idle = true)
    (hres : (s.s i).lastResult ≠ .busy) (hleft : (s.s i).inProgress = false) (e : slaveHandler i s = .next t) :
    (t.s i).lastResult = (s.s i).lastResult := by
  obtain ⟨v, h12, h3⟩ := Res.bind_eq_next e
  obtain ⟨u, h1, h2⟩ := Res.bind_eq_next h12
  obtain ⟨f, hf⟩ : ∃ f, u = s.modCore i f := by
    obtain ⟨f, hf⟩ := slaveByteEvent_noTransfer (s := s.modCore i .dropMasterFlags) (i := i)
      (by rw [State.s_eq, State.modCore_bus_same]; exact hleft)
    rw [hf, State.modCore_modCore] at h1
    exact ⟨_, (Host.Outcome.next.inj h1).symm⟩
  have hbus : u.bus i = (s.bus i).modCore f := by rw [hf, State.modCore_bus_same]
  have hs : u.s i = s.s i := by rw [State.s_eq, hbus]; rfl
  obtain ⟨hdue', hkept⟩ := slaveStopEvent_posted (by rw [hbus]; exact hr) (by rw [hbus]; exact hdue) (hs ▸ hidle)
    (hs ▸ hres) h2
  rw [slaveMatchEvent_off (.inr hdue')] at h3
  cases h3
  rw [hkept, hs]

theorem Posted.dispatch (h : Posted i s) (e : dispatch i s = .next t) : (t.ctx i).lastResult = (s.ctx i).lastResult := by
  have hrole : (t.bus i).role = (s.bus i).role := State.role_of_caller (dispatch_caller e)
  have hdue := h.due
  have hidle := h.idle
  have hres := h.ended
  rw [State.ctx_eq] at hidle hres ⊢
  rw [State.ctx_eq]
  cases hr : (s.bus i).role with
  | none => exact absurd hr h.role
  | master =>
    have e' : Host.Outcome.next _ = Host.Outcome.next t := (h.dma.dispatch_master hr).symm.trans e
    rw [Bus.ctx_master _ hr] at hidle ⊢
    rw [Bus.ctx_master _ (hrole.trans hr)]
    cases e'
    split
    · rw [masterHandler_idle hidle, State.setBus_bus_same]
    · rfl
  | slave =>
    have e' := (h.dma.dispatch_slave hr).symm.trans e
    rw [Bus.ctx_slave _ hr] at hidle hres ⊢
    rw [Bus.ctx_slave _ (hrole.trans hr)]
    split at e'
    · exact slaveHandler_posted hr hdue hidle hres (h.left hr) e'
    · cases e'
      rfl

theorem SCtx.quiet_iff (x : SCtx) : x.quiet = true ↔ x.idle = true ∧ x.inProgress = false := by simp [SCtx.quiet]

theorem Bus.ctx_modCtx (b : Bus) (f : Xfer → Xfer) : (b.modCtx f).ctx = f b.ctx := by
  cases hr : b.role <;> simp [Bus.ctx, Bus.modCtx, hr, MCtx.modX, SCtx.modX]

/-- No operation changes the result that waits for the wake. -/
theorem BesideWaiting.result (h : BesideWaiting i s t) (hp : Posted i s) :
    (t.ctx i).lastResult = (s.ctx i).lastResult := by
  have hidle := hp.idle
  cases h with
  | turnedAway r => rfl
  | masterAbort hr =>
    rw [State.ctx_eq, Bus.ctx_master _ hr] at hidle
    rw [State.m_eq, if_pos hidle]
    rfl
  | slaveAbort hr =>
    rw [State.ctx_eq, Bus.ctx_slave _ hr] at hidle
    rw [if_pos ((s.s i).quiet_iff.mpr ⟨hidle, hp.left hr⟩)]
    rfl
  | lent d buf len =>
    simp only [State.ctx_eq, State.setRet_bus, State.modS_bus_same]
    cases hr : (s.bus i).role <;> simp [Bus.ctx, hr]
  | answered hu v r =>
    rw [State.ctx_eq, State.setRet_bus, State.giveOut0, State.modBus_bus_same, State.setOut0_bus, hu]
    rfl
  | callback cb => rw [State.ctx_eq, State.setRet_bus, State.modCtx_bus_same, Bus.ctx_modCtx, State.ctx_eq]
  | @dispatched u e => exact hp.dispatch (t := u) e

theorem Posted.exec {x : Instr} (h : Posted i s) (e : exec x s = .next t) :
    (t.ctx i).lastResult = (s.ctx i).lastResult := by
  by_cases hi : i = x.inst
  · subst hi
    exact (exec_besideWaiting ((Bus.wakeDue_iff _).mp h.due).1 e).result h
  · rw [State.ctx_eq, (exec_frame e).others i hi, State.ctx_eq]

theorem Posted.anyDispatch {j : BusId} (h : Posted i s) (e : Machine.dispatch j s = .next t) :
    (t.ctx i).lastResult = (s.ctx i).lastResult := by
  by_cases hi : i = j
  · subst hi
    exact h.dispatch e
  · rw [State.ctx_eq, (dispatch_frame e).others i hi, State.ctx_eq]

end Posted

end Sys2Proof.Machine


namespace Sys2Proof.Machine

/-! ## The two resumes (R386, R388, R411) -/

section Resume

variable {i : BusId} {s : State}

/-- OUT0 is overwritten with a value drawn, and the note of log entry 30 is cleared. -/
theorem overwriteOut0_eq (i : BusId) (s : State) :
    overwriteOut0 i s = (s.outOverwritten i s.drawRead.1).setBus i { s.bus i with outGiven := false } := by
  unfold overwriteOut0 State.outOverwritten
  cases hg : (s.bus i).outGiven with
  | true => rfl
  | false =>
    have same : { s.bus i with outGiven := false } = s.bus i := by rw [← hg]
    rw [same]
    exact (s.setBus_self i).symm

/-- What a resume leaves: nothing suspended, the result in RET, OUT0 by the note. -/
theorem resume_eq (i : BusId) (n : Nat) (r : Result) (s : State) :
    resume i n r s =
      ((s.outOverwritten i s.drawRead.1).setBus i
        { (s.bus i).modCtx (fun x => { x with blocking := false }) with
          sem := n, wait := .none, outGiven := false }).setRet r := by
  unfold resume
  rw [overwriteOut0_eq, State.modCtx, State.modBus_setBus, State.modBus_setBus]
  unfold Bus.modCtx
  cases hr : (s.bus i).role <;> rfl

theorem Bus.modCtx_inProgress (b : Bus) (f : Xfer → Xfer) : (b.modCtx f).s.inProgress = b.s.inProgress := by
  unfold Bus.modCtx
  split <;> rfl

/-- R390 (c): after a resume nothing is suspended, and a context left idle stays idle. -/
theorem resume_leaves (i : BusId) (n : Nat) (r : Result) (s : State) :
    ((resume i n r s).bus i).wait = .none ∧ ((resume i n r s).ctx i).blocking = false ∧
      ((resume i n r s).ctx i).idle = (s.ctx i).idle ∧ ((resume i n r s).s i).inProgress = (s.s i).inProgress := by
  have hbus : (resume i n r s).bus i =
      { (s.bus i).modCtx (fun x => { x with blocking := false }) with sem := n, wait := .none, outGiven := false } := by
    rw [resume_eq, State.setRet_bus, State.setBus_bus_same]
  have hctx : (resume i n r s).ctx i = { s.ctx i with blocking := false } := by
    rw [State.ctx_eq, hbus]
    exact Bus.ctx_modCtx ..
  rw [hctx, State.s_eq, hbus]
  exact ⟨rfl, rfl, rfl, Bus.modCtx_inProgress ..⟩

theorem wake_due (h : (s.bus i).wakeDue = true) :
    wake i s = resume i ((s.bus i).sem - 1) (s.ctx i).lastResult s := by
  rw [wake, if_pos h]

theorem timeout_due (hw : (s.bus i).wait.isSome = true) (hs : (s.bus i).sem = 0) :
    timeout i s = resume i 0 .timeout ((timeoutAbort i s).modCtx i fun x => { x with lastResult := .timeout }) := by
  rw [timeout, if_pos ⟨hw, hs⟩]

theorem State.outOverwritten_setBus (s : State) {b : Bus} (v : Word) (h : b.outGiven = (s.bus i).outGiven) :
    (s.setBus i b).outOverwritten i v = (s.outOverwritten i v).setBus i b := by
  unfold State.outOverwritten
  rw [State.setBus_bus_same, h]
  split <;> rfl

theorem Bus.modCtx_outGiven (b : Bus) (f : Xfer → Xfer) : (b.modCtx f).outGiven = b.outGiven := by
  unfold Bus.modCtx
  split <;> rfl

theorem Bus.modCtx_modCtx (b : Bus) (f g : Xfer → Xfer) : (b.modCtx f).modCtx g = b.modCtx fun x => g (f x) := by
  unfold Bus.modCtx
  cases hr : b.role <;> simp only [hr, Bus.modM, Bus.modS] <;> rfl

/-- The timeout's result is written by the resume that follows the abort. -/
theorem timeout_eq (hw : (s.bus i).wait.isSome = true) (hs : (s.bus i).sem = 0) :
    ∃ v, timeout i s =
      (((timeoutAbort i s).outOverwritten i v).setBus i
        { ((timeoutAbort i s).bus i).modCtx (fun x => { x with lastResult := .timeout, blocking := false }) with
          sem := 0, wait := .none, outGiven := false }).setRet .timeout := by
  rw [timeout_due hw hs, resume_eq]
  generalize timeoutAbort i s = u
  have hctx (f : Xfer → Xfer) : u.modCtx i f = u.setBus i ((u.bus i).modCtx f) := rfl
  rw [hctx, State.outOverwritten_setBus _ _ (Bus.modCtx_outGiven ..), State.setBus_setBus, State.setBus_bus_same,
    Bus.modCtx_modCtx]
  exact ⟨_, rfl⟩

/-- The result code a resume leaves in RET covers what was there. -/
theorem State.setRet_covered (u : State) (i : BusId) (v : Word) (b : Bus) (r q : Result) :
    (((u.setRet r).outOverwritten i v).setBus i b).setRet q = ((u.outOverwritten i v).setBus i b).setRet q := by
  unfold State.outOverwritten
  rw [State.setRet_bus]
  split <;> rfl

theorem timeoutDmaFirst_bus (i j : BusId) (s : State) : (timeoutDmaFirst i s).bus j = s.bus j := by
  unfold timeoutDmaFirst
  split
  · exact dmaStopIf_bus ..
  · rfl

theorem timeoutDmaFirst_master (hr : (s.bus i).role = .master) :
    timeoutDmaFirst i s = if (s.m i).rxBuf.isSome then s.channelStopped (s.m i).toXfer else s := by
  rw [timeoutDmaFirst, State.ctx_eq, Bus.ctx_master _ hr]
  rfl

theorem timeoutDmaFirst_slave (hr : (s.bus i).role = .slave) :
    timeoutDmaFirst i s = if (s.s i).rxBuf.isSome then s.channelStopped (s.s i).toXfer else s := by
  rw [timeoutDmaFirst, State.ctx_eq, Bus.ctx_slave _ hr]
  rfl

theorem timeoutAbort_master (hr : (s.bus i).role = .master) :
    timeoutAbort i s = if (s.m i).idle then s else masterAbort i (timeoutDmaFirst i s) := by
  rw [timeoutAbort, hr]

theorem timeoutAbort_slave (hr : (s.bus i).role = .slave) :
    timeoutAbort i s = if (s.s i).quiet then s else slaveAbort i (timeoutDmaFirst i s) := by
  rw [timeoutAbort, hr]

/-- R386: the timeout of a master is M_ABORT, the channel stopped once more, first, while a receive is outstanding. -/
theorem exec_mAbort_timeout (hr : (s.bus i).role = .master) :
    exec (.mAbort i)
        (if (s.m i).idle = false ∧ (s.m i).rxBuf.isSome = true then s.channelStopped (s.m i).toXfer else s) =
      .next ((timeoutAbort i s).setRet .success) := by
  rw [timeoutAbort_master hr]
  cases hidle : (s.m i).idle with
  | true => rw [if_neg (by simp), if_pos rfl, exec_mAbort hr, if_pos hidle]
  | false =>
    have hm : (timeoutDmaFirst i s).m i = s.m i := congrArg Bus.m (timeoutDmaFirst_bus i i s)
    simp only [true_and]
    rw [← timeoutDmaFirst_master hr, exec_mAbort (by rw [timeoutDmaFirst_bus]; exact hr), hm, hidle]
    rfl

theorem exec_sAbort_timeout (hr : (s.bus i).role = .slave) :
    exec (.sAbort i)
        (if ((s.s i).idle = false ∨ (s.s i).inProgress = true) ∧ (s.s i).rxBuf.isSome = true then
          s.channelStopped (s.s i).toXfer else s) =
      .next ((timeoutAbort i s).setRet .success) := by
  have hquiet : (s.s i).quiet = false ↔ (s.s i).idle = false ∨ (s.s i).inProgress = true := by
    rw [SCtx.quiet, Bool.and_eq_false_iff, Bool.not_eq_false']
  rw [timeoutAbort_slave hr]
  simp only [← hquiet]
  cases hq : (s.s i).quiet with
  | true => rw [if_neg (by simp), if_pos rfl, exec_sAbort hr, if_pos hq]
  | false =>
    have hs : (timeoutDmaFirst i s).s i = s.s i := congrArg Bus.s (timeoutDmaFirst_bus i i s)
    simp only [true_and]
    rw [← timeoutDmaFirst_slave hr, exec_sAbort (by rw [timeoutDmaFirst_bus]; exact hr), hs, hq]
    rfl

theorem timeoutAbort_caller (i : BusId) (s : State) : (timeoutAbort i s).caller i = s.caller i := by
  have first : (timeoutDmaFirst i s).caller i = s.caller i := by simp [timeoutDmaFirst]
  unfold timeoutAbort
  split <;> simp [first, slaveAbort_caller]

theorem masterAbort_idle (i : BusId) (s : State) : ((masterAbort i s).m i).idle = true := by
  rw [masterAbort, State.m_eq, masterClose_bus]
  rfl

theorem slaveAbort_quiet (i : BusId) (s : State) :
    ((slaveAbort i s).s i).idle = true ∧ ((slaveAbort i s).s i).inProgress = false := by
  rw [slaveAbort_eq, State.setBus_s]
  exact ⟨rfl, rfl⟩

/-- R390 (c): the abort of the timeout leaves nothing in flight. -/
theorem timeoutAbort_ends (hr : (s.bus i).role ≠ .none) :
    ((timeoutAbort i s).ctx i).idle = true ∧ ((s.bus i).role = .slave → ((timeoutAbort i s).s i).inProgress = false) := by
  have hrole := State.role_of_caller (timeoutAbort_caller i s)
  cases h : (s.bus i).role with
  | none => exact absurd h hr
  | master =>
    have ends : ((timeoutAbort i s).m i).idle = true := by
      rw [timeoutAbort_master h]
      by_cases hidle : (s.m i).idle
      · rw [if_pos hidle]
        exact hidle
      · rw [if_neg hidle]
        exact masterAbort_idle ..
    rw [State.ctx_eq, Bus.ctx_master _ (hrole.trans h)]
    exact ⟨ends, fun hslave => nomatch hslave⟩
  | slave =>
    have ends : ((timeoutAbort i s).s i).idle = true ∧ ((timeoutAbort i s).s i).inProgress = false := by
      rw [timeoutAbort_slave h]
      by_cases hq : (s.s i).quiet
      · rw [if_pos hq]
        exact (s.s i).quiet_iff.mp hq
      · rw [if_neg hq]
        exact slaveAbort_quiet ..
    rw [State.ctx_eq, Bus.ctx_slave _ (hrole.trans h)]
    exact ⟨ends.1, fun _ => ends.2⟩

theorem timeout_leaves (hr : (s.bus i).role ≠ .none) (hw : (s.bus i).wait.isSome = true) (hs : (s.bus i).sem = 0) :
    ((timeout i s).bus i).wait = .none ∧ ((timeout i s).ctx i).blocking = false ∧ ((timeout i s).ctx i).idle = true ∧
      ((s.bus i).role = .slave → ((timeout i s).s i).inProgress = false) := by
  obtain ⟨hidle, hleft⟩ := timeoutAbort_ends hr
  rw [timeout_due hw hs]
  obtain ⟨hwait, hblock, hidle', hleft'⟩ := resume_leaves i 0 .timeout
    ((timeoutAbort i s).modCtx i fun x => { x with lastResult := .timeout })
  refine ⟨hwait, hblock, hidle'.trans ?_, fun h => hleft'.trans ?_⟩
  · rw [State.ctx_eq, State.modCtx_bus_same, Bus.ctx_modCtx]
    exact hidle
  · rw [State.s_eq, State.modCtx_bus_same, Bus.modCtx_inProgress]
    exact hleft h

theorem Posted.wake_leaves (h : Posted i s) :
    ((wake i s).bus i).wait = .none ∧ ((wake i s).ctx i).blocking = false ∧ ((wake i s).ctx i).idle = true ∧
      ((s.bus i).role = .slave → ((wake i s).s i).inProgress = false) := by
  rw [wake_due h.due]
  obtain ⟨hwait, hblock, hidle, hleft⟩ := resume_leaves i ((s.bus i).sem - 1) (s.ctx i).lastResult s
  exact ⟨hwait, hblock, hidle.trans h.idle, fun hr => hleft.trans (h.left hr)⟩

end Resume

/-- Settles O59: both resumes by what a resume leaves, the timeout's abort as the command's; the handlers and the operations
beside a suspended caller by what they keep of it, and of the result that waits for the wake. -/
theorem blockingResumes : Obligations.BlockingResumes := by
  unfold Obligations.BlockingResumes
  intro i s
  refine ⟨fun hw => ?none, fun hw hs => ?unposted, fun hw hs => ?posted,
    fun hr hw => ⟨fun hs => ?masterWakes, fun hs => ?masterTimesOut⟩,
    fun hr hw => ⟨fun hs => ?slaveWakes, fun hs => ?slaveTimesOut⟩, fun t hinv hw h => ?leaves, fun j t e => ?handlers,
    fun x t hw e => exec_keepsWait hw e, fun hinv hw hs => ?result, fun hr hw hs hm hb hn hp hl hdma => ?matchWaits⟩
  case none => simp [runInput, wake, timeout, Bus.wakeDue, hw]
  case unposted => simp [runInput, wake, Bus.wakeDue, hs]
  case posted => simp [runInput, timeout, hs]
  case masterWakes =>
    rw [runInput, wake_due ((Bus.wakeDue_iff _).mpr ⟨hw, hs⟩), resume_eq, Bus.modCtx_master _ _ hr, State.ctx_eq,
      Bus.ctx_master _ hr]
    exact ⟨_, rfl⟩
  case slaveWakes =>
    rw [runInput, wake_due ((Bus.wakeDue_iff _).mpr ⟨hw, hs⟩), resume_eq, Bus.modCtx_slave _ _ hr, State.ctx_eq,
      Bus.ctx_slave _ hr]
    exact ⟨_, rfl⟩
  case masterTimesOut =>
    obtain ⟨v, hv⟩ := timeout_eq hw hs
    have hrole := (State.role_of_caller (timeoutAbort_caller i s)).trans hr
    refine ⟨_, v, exec_mAbort_timeout hr, ?_⟩
    rw [runInput, hv, State.setRet_covered, Bus.modCtx_master _ _ hrole]
    rfl
  case slaveTimesOut =>
    obtain ⟨v, hv⟩ := timeout_eq hw hs
    have hrole := (State.role_of_caller (timeoutAbort_caller i s)).trans hr
    refine ⟨_, v, exec_sAbort_timeout hr, ?_⟩
    rw [runInput, hv, State.setRet_covered, Bus.modCtx_slave _ _ hrole]
    rfl
  case leaves =>
    rcases h with ⟨hs, e⟩ | ⟨hs, e⟩
    · cases e
      exact (hinv.posted hw hs).wake_leaves
    · cases e
      exact timeout_leaves (Bus.waitOk_suspended (hinv.waiting i) hw).1 hw hs
  case handlers =>
    have kept := dispatch_keepsCaller (i := i) e
    exact ⟨State.wait_of_caller kept, State.blocking_of_caller kept, State.port_of_caller kept⟩
  case result =>
    have hposted := hinv.posted hw hs
    refine ⟨hposted.ended, fun t h => ?_⟩
    rcases h with ⟨j, e⟩ | ⟨x, e⟩
    · exact hposted.anyDispatch e
    · exact hposted.exec e
  case matchWaits =>
    rw [dispatch_match hr hdma hl (BusCore.byteEvent_none hb hn) hp]
    exact slaveMatchEvent_off (.inr ((Bus.wakeDue_iff _).mpr ⟨hw, hs⟩))

end Sys2Proof.Machine

/-! # The proofs of the family 47_host_interface.md: lifecycle, configuration and IRQ_ENTRY (R400 to R409) -/

namespace Sys2Proof.Machine

/-! ## Commands turned away, and commands let through (R104, R114) -/

/-- R104 (3), (4): in its role, an operation that a suspended command or a transfer in flight keeps out is BUSY. -/
theorem admitted_busy {k : OpClass} {i : BusId} {s : State} {f : State → Res} (hr : (s.bus i).role ≠ .none)
    (hk : k.roleOk (s.bus i).role = true)
    (h : ((s.bus i).wait.isSome = true ∧ k.whileWaiting = false) ∨ ((s.ctx i).idle = false ∧ k.needsIdle = true)) :
    admitted k i s f = .next (s.setRet .busy) := by
  have haway : (s.bus i).turnAway k = .some .busy := by
    rcases h with ⟨hw, hk'⟩ | ⟨hi, hk'⟩
    · simp [Bus.turnAway, hr, hk, hw, hk']
    · simp [Bus.turnAway, hr, hk, ← State.ctx_eq, hi, hk']
  simp only [admitted, haway, State.reject]

/-- No role keeps an INIT out; that a bound instance answers ERROR is a test of its own (R400). -/
theorem Bus.turnAway_init {b : Bus} (hw : b.wait = .none) : b.turnAway .init = .none := by
  simp [Bus.turnAway, hw, OpClass.roleOk, OpClass.needsIdle]

theorem OpClass.setTarget_wrongRole {r : Role} (h : r ≠ .master) : r = .none ∨ OpClass.setTarget.roleOk r = false := by
  cases r with
  | none => exact .inl rfl
  | slave => exact .inr rfl
  | master => exact absurd rfl h

theorem OpClass.setOwn_wrongRole {r : Role} (h : r ≠ .slave) : r = .none ∨ OpClass.setOwn.roleOk r = false := by
  cases r with
  | none => exact .inl rfl
  | master => exact .inr rfl
  | slave => exact absurd rfl h

theorem addrOutOfRange_iff (a10 : Bool) (a : Word) :
    addrOutOfRange a10 a = true ↔ (if a10 then 0x3FF else 0x7F) < a.toNat := by
  cases a10 <;> simp [addrOutOfRange, BitVec.lt_def]

/-! ## SET_CALLBACK (R408) -/

theorem exec_setCallback {i : BusId} {s : State} (install : Bool) (hr : (s.bus i).role ≠ .none) :
    exec (.setCallback i install) s =
      .next ((s.setBus i ((s.bus i).modCtx fun x => { x with cb := cbOf install s.port.arg0 })).setRet .success) := by
  rw [exec]
  exact admitted_run (Bus.turnAway_any hr rfl rfl rfl)

/-- Settles O25: the role decides on admission and on the context that is changed. -/
theorem setCallbackResult : Obligations.SetCallbackResult := by
  unfold Obligations.SetCallbackResult
  refine fun i install s => ⟨fun hr => ?none, fun hr => ?master, fun hr => ?slave⟩
  case none =>
    rw [exec]
    exact admitted_wrongRole (k := .setCallback) (by decide) (.inl hr)
  case master =>
    rw [exec_setCallback install (by rw [hr]; decide), Bus.modCtx_master _ _ hr]
    rfl
  case slave =>
    rw [exec_setCallback install (by rw [hr]; decide), Bus.modCtx_slave _ _ hr]
    rfl

/-! ## SET_TARGET_ADDR and SET_OWN_ADDR (R406, R407) -/

theorem IdleMaster.exec_setTargetAddr {i : BusId} {s : State} (h : IdleMaster i s) (a10 : Bool) :
    exec (.setTargetAddr i a10) s =
      if addrOutOfRange a10 s.port.arg0 then .next (s.setRet .error)
      else .next ((s.setBus i
        { s.bus i with m := { s.m i with slaveAddr := s.port.arg0.setWidth 10, addr10 := a10 } }).setRet .success) := by
  rw [exec]
  exact admitted_run (k := .setTarget) (h.idleAt.turnAway (by rw [h.role]; rfl))

theorem IdleSlave.exec_setOwnAddr {i : BusId} {s : State} (h : IdleSlave i s) (a10 : Bool) :
    exec (.setOwnAddr i a10) s =
      if addrOutOfRange a10 s.port.arg0 then .next (s.setRet .error)
      else .next ((s.setBus i
        { s.bus i with
          core := { s.core i with ownaddr := s.port.arg0.setWidth 10, addr10 := a10 }
          s := { s.s i with addr10 := a10 } }).setRet .success) := by
  have hset : (s.modCore i fun c => { c with ownaddr := s.port.arg0.setWidth 10, addr10 := a10 }).modSX i
      (fun x => { x with addr10 := a10 }) =
      s.setBus i
        { s.bus i with
          core := { s.core i with ownaddr := s.port.arg0.setWidth 10, addr10 := a10 }
          s := { s.s i with addr10 := a10 } } := State.modSX_setBus ..
  rw [exec, execSetOwnAddr, admitted_run (h.idleAt.turnAway (by rw [h.role]; rfl)), hset, State.reject]

/-- Settles O24: role, suspension and idle flag decide on admission, the range on the rest. -/
theorem setAddressResult : Obligations.SetAddressResult := by
  unfold Obligations.SetAddressResult
  refine fun i a10 s => ⟨fun hr => ?notMaster, fun hr => ?notSlave,
    fun hbusy => ⟨fun hr => ?busyMaster, fun hr => ?busySlave⟩,
    fun h => ⟨fun hout => ?masterOut, fun hin => ?masterIn⟩, fun h => ⟨fun hout => ?slaveOut, fun hin => ?slaveIn⟩⟩
  case notMaster =>
    rw [exec]
    exact admitted_wrongRole (k := .setTarget) (by decide) (OpClass.setTarget_wrongRole hr)
  case notSlave =>
    rw [exec]
    exact admitted_wrongRole (k := .setOwn) (by decide) (OpClass.setOwn_wrongRole hr)
  case busyMaster =>
    rw [exec]
    exact admitted_busy (k := .setTarget) (by rw [hr]; decide) (by rw [hr]; rfl) (hbusy.imp (⟨·, rfl⟩) (⟨·, rfl⟩))
  case busySlave =>
    rw [exec]
    exact admitted_busy (k := .setOwn) (by rw [hr]; decide) (by rw [hr]; rfl) (hbusy.imp (⟨·, rfl⟩) (⟨·, rfl⟩))
  case masterOut => rw [h.exec_setTargetAddr, if_pos ((addrOutOfRange_iff ..).mpr hout)]
  case masterIn => rw [h.exec_setTargetAddr, if_neg (mt (addrOutOfRange_iff ..).mp (Nat.not_lt.mpr hin))]
  case slaveOut => rw [h.exec_setOwnAddr, if_pos ((addrOutOfRange_iff ..).mpr hout)]
  case slaveIn => rw [h.exec_setOwnAddr, if_neg (mt (addrOutOfRange_iff ..).mp (Nat.not_lt.mpr hin))]

/-! ## SET_RATE and GET_RATE (R403, R405) -/

/-- R336, R92: the pair is written while the module is off, which drops every request and all ownership. -/
theorem BusCore.writeDivider_eq (c : BusCore) (sample : Byte) (step : BitVec 4) :
    c.writeDivider sample step = { c.disable with sample := sample, step := step, moden := true } := by
  rw [BusCore.writeDivider, BusCore.setDiv_disabled c.disable rfl]
  rfl

theorem solveDivider_setBus {i : BusId} {target : Word} {s : State} {best : Candidate}
    (h : solve s.params (s.clkIn i).toNat target.toNat = .some best) (b : Bus) :
    solveDivider i target (s.setBus i b) =
      s.setBus i
        { b with
          core :=
            { b.core.disable with
              sample := BitVec.ofNat 8 best.sample, step := BitVec.ofNat 4 best.step, moden := true } } := by
  have h' : solve (s.setBus i b).params ((s.setBus i b).clkIn i).toNat target.toNat = .some best := h
  rw [solveDivider, h']
  simp only [State.modCore_setBus, Bus.modCore, BusCore.writeDivider_eq]

/-- Settles O21: what keeps SET_RATE out, then the solver; GET_RATE is admitted in every role and state. -/
theorem rateCommands : Obligations.RateCommands := by
  unfold Obligations.RateCommands
  refine fun i s => ⟨fun hr => ⟨?setNone, ?getNone⟩, fun hr hbusy => ?busy,
    fun hwf h => ⟨fun hzero => ?zero, fun htarget => ?set⟩, fun hr => ?get⟩
  case setNone =>
    rw [exec]
    exact admitted_wrongRole (k := .setRate) (by decide) (.inl hr)
  case getNone =>
    rw [exec]
    exact admitted_wrongRole (k := .getRate) (by decide) (.inl hr)
  case busy =>
    rw [exec]
    exact admitted_busy (k := .setRate) hr rfl (hbusy.imp (⟨·, rfl⟩) (⟨·, rfl⟩))
  case zero =>
    rw [exec, execSetRate, admitted_run (h.turnAway rfl), if_pos hzero, State.reject]
  case set =>
    obtain ⟨best, hbest, -⟩ := solve_closest (s.clkIn i).toNat s.port.arg0.toNat hwf
    have hsolved := solveDivider_setBus hbest (s.bus i)
    rw [State.setBus_self] at hsolved
    refine ⟨best, hbest, ?_⟩
    rw [exec, execSetRate, admitted_run (h.turnAway rfl), if_neg htarget, hsolved, State.core_eq]
  case get =>
    rw [exec, execGetRate, admitted_run (Bus.turnAway_any hr rfl rfl rfl), State.giveOut0_eq, rate]

/-! ## INIT_MASTER and INIT_SLAVE (R400, R401) -/

section Init

variable {i : BusId} {tr : Transport} {a10 : Bool} {ch : Chan} {s : State}

/-- The tests of INIT are that of the role and those of its operands. -/
theorem initTest_eq_error (h : (s.bus i).role ≠ .none ∨ badConfig s tr a10 ch) : initTest i tr a10 ch s = .some .error := by
  unfold initTest
  rcases h with hr | hzero | hrange | hchan
  · rw [if_pos hr]
  · simp only [hzero, if_true, ite_self]
  · simp only [(addrOutOfRange_iff ..).mpr hrange, if_true, ite_self]
  · simp only [if_pos hchan, ite_self]

theorem initTest_eq_none (hr : (s.bus i).role = .none) (h : ¬badConfig s tr a10 ch) : initTest i tr a10 ch s = .none := by
  obtain ⟨hzero, h⟩ := not_or.mp h
  obtain ⟨hrange, hchan⟩ := not_or.mp h
  rw [initTest, if_neg (not_not_intro hr), if_neg hzero, if_neg (mt (addrOutOfRange_iff ..).mp hrange), if_neg hchan]

variable (hw : (s.bus i).wait = .none) (f : State → State)
include hw

theorem initAdmitted_error (h : (s.bus i).role ≠ .none ∨ badConfig s tr a10 ch) :
    initAdmitted i tr a10 ch s f = .next (s.setRet .error) := by
  rw [initAdmitted, admitted_run (Bus.turnAway_init hw), initTest_eq_error h]
  rfl

theorem initAdmitted_run (hr : (s.bus i).role = .none) (h : ¬badConfig s tr a10 ch)
    (hfree : tr = .dma → channelTaken i ch s = false) :
    initAdmitted i tr a10 ch s f = .next ((f s).setRet .success) := by
  rw [initAdmitted, admitted_run (Bus.turnAway_init hw), initTest_eq_none hr h]
  exact if_neg fun ⟨hdma, htaken⟩ => Bool.false_ne_true ((hfree hdma).symm.trans htaken)

end Init

/-- Settles O18: the tests, then the reset core with the pair of the solver and the context bound. -/
theorem initMasterResult : Obligations.InitMasterResult := by
  unfold Obligations.InitMasterResult
  refine fun i tr a10 cb ch s hwf hw => ⟨fun hbad => ?error, fun hr hgood hfree => ?bound⟩
  case error =>
    rw [exec]
    exact initAdmitted_error hw _ hbad
  case bound =>
    obtain ⟨best, hbest, -⟩ := solve_closest (s.clkIn i).toNat s.port.arg0.toNat hwf
    refine ⟨best, hbest, ?_⟩
    rw [exec, execInitMaster, initAdmitted_run hw _ hr hgood hfree, initMaster, State.modBus, solveDivider_setBus hbest]
    rfl

theorem armIf_setBus (i : BusId) (s : State) (b : Bus) (listening : Bool) :
    armIf listening i (s.setBus i b) = s.setBus i (b.modCore fun c => if listening then c.slaveArm else c) := by
  cases listening with
  | true => exact State.modCore_setBus ..
  | false => rfl

/-- Settles O19: as O18, with the slave armed where it listens. -/
theorem initSlaveResult : Obligations.InitSlaveResult := by
  unfold Obligations.InitSlaveResult
  refine fun i tr a10 cb lis wk ch s hwf hw => ⟨fun hbad => ?error, fun hr hgood hfree => ?bound⟩
  case error =>
    rw [exec]
    exact initAdmitted_error hw _ hbad
  case bound =>
    obtain ⟨best, hbest, -⟩ := solve_closest (s.clkIn i).toNat s.port.arg0.toNat hwf
    refine ⟨best, hbest, ?_⟩
    rw [exec, execInitSlave, initAdmitted_run hw _ hr hgood hfree, initSlave, State.modBus, solveDivider_setBus hbest,
      armIf_setBus]
    cases lis <;> rfl

/-! ## DEINIT (R402) -/

theorem releaseChan_eq (i : BusId) (s : State) : releaseChan i s = s.channelReleased i (s.ctx i).dmaChannel := rfl

theorem deinitAbort_master {i : BusId} {s : State} (hr : (s.bus i).role = .master) :
    deinitAbort i s = if (s.m i).idle then s else masterAbort i s := by
  rw [deinitAbort, hr]

theorem deinitAbort_slave {i : BusId} {s : State} (hr : (s.bus i).role = .slave) :
    deinitAbort i s = (if (s.s i).quiet then s else slaveAbort i s).modCore i .slaveDisarm := by
  rw [deinitAbort, hr]

/-- An instance with nothing suspended is let through; the abort keeps it bound to its channel, which is released. -/
theorem exec_deinit {i : BusId} {s : State} (hr : (s.bus i).role ≠ .none) (hw : (s.bus i).wait = .none) :
    exec (.deinit i) s =
      .next ((((deinitAbort i s).channelReleased i (s.ctx i).dmaChannel).modBus i .deinit).setRet .success) := by
  have hk : (s.bus i).turnAway .deinit = .none := by simp [Bus.turnAway, hr, hw, OpClass.roleOk, OpClass.needsIdle]
  rw [exec, execDeinit, admitted_run hk, releaseChan_eq, (BoundFrame.refl i 0 s).deinitAbort.bound]

theorem State.channelReleased_bus (s : State) (i : BusId) (c : Chan) (j : BusId) :
    (s.channelReleased i c).bus j = s.bus j := by
  unfold State.channelReleased
  split <;> rfl

theorem State.channelReleased_setRet (s : State) (i : BusId) (c : Chan) (r : Result) :
    (s.setRet r).channelReleased i c = (s.channelReleased i c).setRet r := by
  unfold State.channelReleased
  rw [State.setRet_chan]
  split <;> rfl

theorem Bus.deinit_master {b : Bus} (hr : b.role = .master) :
    b.deinit =
      { b with
        core :=
          { b.core.disable with
            mstr := false, bndie := false, nackie := false, arbie := false, addrie := false, stopie := false }
        m := { b.m with cb := .none }
        role := .none, phase := .idle, sem := 0, clk := false } := by
  rw [Bus.deinit, Bus.modCtx_master (b.modCore _) _ hr]
  rfl

/-- DEINIT of a slave takes its DMA requests off with its sources (R284, R402). -/
theorem Bus.deinit_slave {b : Bus} (hr : b.role = .slave) :
    (b.modCore .slaveDisarm).deinit =
      { b with
        core :=
          { b.core.disable with
            mstr := false, bndie := false, nackie := false, arbie := false, addrie := false, stopie := false
            dmatxen := false, dmarxen := false }
        s := { b.s with cb := .none }
        role := .none, phase := .idle, sem := 0, clk := false } := by
  rw [Bus.deinit, Bus.modCtx_slave ((b.modCore _).modCore _) _ hr]
  simp only [Bus.modCore, BusCore.slaveDisarm_eq]
  rfl

/-- Settles O20: the role decides on the abort; what comes after it reads that state's bus and the channel bound. -/
theorem deinitResult : Obligations.DeinitResult := by
  unfold Obligations.DeinitResult
  refine fun i s => ⟨fun hr => ?none, fun hr hw => ?busy, fun hr hw => ?master, fun hr hw => ?slave⟩
  case none =>
    rw [exec]
    exact admitted_wrongRole (k := .deinit) (by decide) (.inl hr)
  case busy =>
    rw [exec]
    exact admitted_busy (k := .deinit) hr rfl (.inl ⟨hw, rfl⟩)
  case master =>
    have hrole := (BoundFrame.refl i 0 s).deinitAbort.role.trans hr
    refine ⟨_, exec_mAbort hr, ?_⟩
    rw [exec_deinit (by rw [hr]; decide) hw, State.ctx_eq, Bus.ctx_master _ hr, ← deinitAbort_master hr]
    generalize deinitAbort i s = u at hrole
    rw [State.modBus, State.channelReleased_bus, Bus.deinit_master hrole, State.channelReleased_setRet]
    rfl
  case slave =>
    have hrole := (BoundFrame.refl i 0 s).deinitAbort.role.trans hr
    refine ⟨_, exec_sAbort hr, ?_⟩
    rw [exec_deinit (by rw [hr]; decide) hw, State.ctx_eq, Bus.ctx_slave _ hr, deinitAbort_slave hr]
    rw [deinitAbort_slave hr, State.modCore_bus_same, Bus.modCore_role] at hrole
    generalize (if (s.s i).quiet then s else slaveAbort i s) = u at hrole
    have hdisarmed : u.modCore i .slaveDisarm = u.setBus i ((u.bus i).modCore .slaveDisarm) := rfl
    rw [hdisarmed, State.channelReleased_setBus, State.modBus_setBus, Bus.deinit_slave hrole, State.channelReleased_setRet]
    rfl

/-! ## A slave without a callback is refused nothing (R440, R446) -/

/-- Only a callback can lend a buffer the spec refuses, and the slave has none. -/
structure SilentSlave (i : BusId) (s : State) : Prop where
  role : (s.bus i).role = .slave
  cb : (s.s i).cb = .none

/-- The outcome is a next state, the slave still without a callback. -/
def Completes (i : BusId) (r : Res) : Prop := ∃ t, r = .next t ∧ SilentSlave i t

section Completes

variable {i : BusId} {s t : State} {r : Res} {f : State → Res}

theorem SilentSlave.done (h : SilentSlave i s) : Completes i (.next s) := ⟨s, rfl, h⟩

theorem Completes.bind (h : Completes i r) (hf : ∀ t, SilentSlave i t → Completes i (f t)) : Completes i (r.bind f) := by
  obtain ⟨t, rfl, ht⟩ := h
  exact hf t ht

theorem Completes.ite {p : Prop} [Decidable p] {q : Res} (hr : Completes i r) (hq : Completes i q) :
    Completes i (if p then r else q) := by
  split
  · exact hr
  · exact hq

theorem SilentSlave.ite {p : Prop} [Decidable p] (hs : SilentSlave i s) (ht : SilentSlave i t) :
    SilentSlave i (if p then s else t) := closed_ite hs ht

/-! ### Updates that install no callback -/

theorem SilentSlave.modBus (h : SilentSlave i s) {f : Bus → Bus} (hr : (f (s.bus i)).role = (s.bus i).role)
    (hcb : (f (s.bus i)).s.cb = (s.bus i).s.cb) : SilentSlave i (s.modBus i f) where
  role := by rw [State.modBus_bus_same]; exact hr.trans h.role
  cb := by rw [State.s_eq, State.modBus_bus_same]; exact hcb.trans h.cb

theorem SilentSlave.modCore (h : SilentSlave i s) (f : BusCore → BusCore) : SilentSlave i (s.modCore i f) :=
  h.modBus rfl rfl

theorem SilentSlave.setPhase (h : SilentSlave i s) (p : Phase) : SilentSlave i (s.setPhase i p) := h.modBus rfl rfl

theorem SilentSlave.modS (h : SilentSlave i s) {f : SCtx → SCtx} (hf : ∀ x, (f x).cb = x.cb := by exact fun _ => rfl) :
    SilentSlave i (s.modS i f) := h.modBus rfl (hf _)

theorem SilentSlave.modChan (h : SilentSlave i s) (c : Chan) (f : DmaChan → DmaChan) : SilentSlave i (s.modChan c f) :=
  ⟨h.role, h.cb⟩

theorem SilentSlave.logDma (h : SilentSlave i s) (x : DmaCall) : SilentSlave i (s.logDma x) := ⟨h.role, h.cb⟩

theorem SilentSlave.store (h : SilentSlave i s) (a : Word) (v : Byte) : SilentSlave i (s.store a v) := ⟨h.role, h.cb⟩

theorem SilentSlave.dmaStop (h : SilentSlave i s) (c : Chan) : SilentSlave i (dmaStop c s) := (h.modChan c _).logDma _

theorem SilentSlave.dmaBulk (h : SilentSlave i s) (c : Chan) (x y : Endpoint) (n : Word) (d : DmaDir) (r : Dir) :
    SilentSlave i (dmaBulk i c x y n d r s) :=
  (((((((h.modCore _).modChan c _).logDma _).modChan c _).logDma _).modCore _).modChan c _).logDma _

theorem SCtx.dmaSettled_cb (x : SCtx) (left : Word) : (x.dmaSettled left).cb = x.cb := by
  unfold SCtx.dmaSettled
  split
  · split <;> rfl
  · split <;> rfl
  · rfl

theorem SilentSlave.slaveDmaSettle (h : SilentSlave i s) : SilentSlave i (slaveDmaSettle i s) := by
  refine .ite (.modChan (.modS h ?_) _ _) h
  exact fun x => x.dmaSettled_cb _

theorem SCtx.stopEnded_cb (x : SCtx) : x.stopEnded.cb = x.cb := by
  unfold SCtx.stopEnded
  split <;> rfl

theorem SilentSlave.slaveStop (h : SilentSlave i s) : SilentSlave i (slaveStop i s) where
  role := slaveStop_role h.role
  cb := by
    obtain ⟨-, -, -, hcb, -⟩ := s.stopCounts_frame i (s.s i) ((s.s i).transport == .dma)
    rw [slaveStop_eq h.role rfl, State.setBus_s, h.cb]
    exact (SCtx.stopEnded_cb _).trans (hcb.trans h.cb)

/-! ### The callbacks, the bytes and the handlers -/

theorem SilentSlave.slaveCallback (h : SilentSlave i s) (e : Event) : Completes i (slaveCallback i e s) := by
  have hunset := slaveCallback_unset (i := i) (e := e) (s := s) h.role h.cb
  rw [State.setBus_self] at hunset
  exact ⟨s, hunset, h⟩

theorem SilentSlave.slaveRecordError (h : SilentSlave i s) (code : Result) : Completes i (slaveRecordError i code s) :=
  ((h.setPhase _).modS.slaveCallback _).bind fun _ ht => (ht.setPhase _).done

theorem SilentSlave.slaveTxNext (h : SilentSlave i s) : Completes i (slaveTxNext i s) :=
  (Completes.ite (h.slaveCallback _) h.done).bind fun _ ht =>
    .ite (ht.modS.modCore _).done ((ht.slaveRecordError _).bind fun _ hu => (hu.modCore _).done)

theorem SilentSlave.slaveRecvByte (h : SilentSlave i s) : Completes i (slaveRecvByte i s) :=
  .ite ((h.store _ _).modS.modCore _).done ((h.modCore _).slaveRecordError _)

theorem SilentSlave.slaveByteEvent (h : SilentSlave i s) : Completes i (slaveByteEvent i s) := by
  rw [slaveByteEvent_eq]
  exact .ite (.ite (h.modCore _).done (.ite (h.modCore _).done (.ite h.slaveTxNext h.slaveRecvByte))) h.done

theorem SilentSlave.slaveStopEvent (h : SilentSlave i s) : Completes i (slaveStopEvent i s) :=
  (SilentSlave.ite h.slaveStop h).done

theorem SilentSlave.slaveBegin (h : SilentSlave i s) : Completes i (slaveBegin i s) := by
  unfold Machine.slaveBegin
  split
  · exact (h.modCore _).slaveTxNext
  · exact (h.modCore _).done

theorem SilentSlave.slaveDmaArm (h : SilentSlave i s) : Completes i (slaveDmaArm i s) := by
  have restarted : SilentSlave i (slaveDmaRestart i s) := .ite ((h.slaveDmaSettle.dmaStop _).modCore _) h
  unfold Machine.slaveDmaArm
  dsimp only
  split
  · exact (SilentSlave.ite (((restarted.modCore _).dmaBulk ..).modS) (restarted.modCore _)).slaveTxNext
  · exact (SilentSlave.ite (((restarted.modCore _).dmaBulk ..).modS) (restarted.modCore _)).done

theorem SCtx.enterTransfer_cb (x : SCtx) : x.enterTransfer.cb = x.cb := by rw [x.enterTransfer_eq]

theorem SilentSlave.slaveAddrMatch (h : SilentSlave i s) : Completes i (slaveAddrMatch i s) := by
  have entered := ((h.modCore (·.clearFlag .addrmatch)).modS SCtx.enterTransfer_cb).setPhase .data
  exact .ite ((entered.modS.slaveCallback _).bind fun _ ht => ht.slaveDmaArm)
    ((entered.modS.slaveCallback _).bind fun _ ht => ht.slaveBegin)

theorem SilentSlave.slaveMatchEvent (h : SilentSlave i s) : Completes i (slaveMatchEvent i s) :=
  .ite h.slaveAddrMatch h.done

theorem SilentSlave.slaveHandler (h : SilentSlave i s) : Completes i (slaveHandler i s) :=
  ((h.modCore _).slaveByteEvent.bind fun _ ht => ht.slaveStopEvent).bind fun _ ht => ht.slaveMatchEvent

theorem SilentSlave.slaveDispatch (h : SilentSlave i s) : Completes i (slaveDispatch i s) :=
  .ite ((((h.modChan _ _).slaveDmaSettle.dmaStop _).modCore _).slaveRecordError _)
    (.ite (((h.modChan _ _).slaveDmaSettle.modCore _).done) h.slaveHandler)

/-- R446: one dispatch of a slave without a callback is not refused. -/
theorem SilentSlave.dispatch (h : SilentSlave i s) : Completes i (dispatch i s) := by
  unfold Machine.dispatch
  rw [h.role]
  exact .ite h.slaveDispatch h.done

end Completes

/-! ## IRQ_ENTRY (R409) -/

/-- A dispatch of a master is never refused: its callbacks lend nothing (R440). -/
theorem dispatch_master {i : BusId} {s : State} (hr : (s.bus i).role = .master) :
    dispatch i s = .next (if dispatchEnabled i s then masterDispatch i s else s) := by
  unfold dispatch
  rw [hr]
  split <;> rfl

theorem noDmaEvent.dispatch_quiet {i : BusId} {s : State} (h : noDmaEvent i s) (hirq : (s.core i).irq = false) :
    dispatch i s = .next s := by
  have hoff : dispatchEnabled i s = false := by simp [dispatchEnabled, hirq, h.err, h.done]
  rw [dispatch, hoff, if_neg Bool.false_ne_true]

theorem exec_irqEntry {i : BusId} {s t : State} (hr : (s.bus i).role ≠ .none) (h : dispatch i s = .next t) :
    exec (.irqEntry i) s = .next (t.setRet .success) := by
  rw [exec, execIrqEntry, admitted_run (Bus.turnAway_any hr rfl rfl rfl), h, Res.bind_next]

/-- Settles O26: IRQ_ENTRY is admitted in every role and state, and answers what the dispatch leaves. -/
theorem irqEntryRunsOneDispatch : Obligations.IrqEntryRunsOneDispatch := by
  unfold Obligations.IrqEntryRunsOneDispatch
  refine fun i s => ⟨fun hr => ?none, fun t hr h => exec_irqEntry hr h, fun h => ?completes, fun hr hirq hdma => ?quiet⟩
  case none =>
    rw [exec]
    exact admitted_wrongRole (k := .irqEntry) (by decide) (.inl hr)
  case completes =>
    rcases h with hr | ⟨hr, hcb⟩
    · exact ⟨_, dispatch_master hr, exec_irqEntry (by rw [hr]; decide) (dispatch_master hr)⟩
    · obtain ⟨t, ht, -⟩ := SilentSlave.dispatch ⟨hr, hcb⟩
      exact ⟨t, ht, exec_irqEntry (by rw [hr]; decide) ht⟩
  case quiet =>
    have hnone : noDmaEvent i s := fun ho => hdma.resolve_left (not_not_intro ho)
    exact exec_irqEntry hr (hnone.dispatch_quiet hirq)

end Sys2Proof.Machine

/-! # The proofs of the family 60_exceptions.md: one step of the machine (R100, R447, R471, R480) -/

namespace Sys2Proof.Machine

/-! ## The next input of the schedule (R58, R447, R480) -/

theorem step_of_no_input {s : State} (h : s.env.inputs = []) : step s = .next s := by
  rw [step, nextInput, h]

theorem step_of_input {x : Input} {rest : List Input} {s : State} (h : s.env.inputs = x :: rest) :
    step s = runInput x (s.withInputs rest) := by
  rw [step, nextInput, h]

/-! ## A write to CMD (R79, R100) -/

theorem State.offset_eBase (s : State) : s.offset s.params.eBase = 0 := BitVec.sub_self _

theorem command_of_op {w : Word} {x : Instr} {s : State} (h : decode s.params.nInst w = .op x) :
    command w s = exec x (s.setPort { s.port with cmd := w }) := by
  rw [command, h]

/-- CMD is the register at offset 0 (R28). -/
theorem writeReg_zero (w : Word) (s : State) : writeReg 0 w s = command w s := rfl

theorem runInput_writeCmd (w : Word) (s : State) :
    runInput (.regWrite .word s.params.eBase w) s = command w s := by
  have haligned : wholeWord .word 0 = true := by decide
  rw [runInput, s.offset_eBase, if_pos haligned, writeReg_zero]

/-! ## A command word put in front of the schedule (log entry 1) -/

theorem State.withFetchWord_word (s : State) (w : Word) : s.withFetchWord 32 w.toNat = s.pushCommand w := by
  rw [State.withFetchWord, Nat.mod_eq_of_lt w.isLt, BitVec.ofNat_toNat, BitVec.setWidth_eq]

/-- Taking the write off again leaves the schedule as it was. -/
theorem State.pushCommand_withInputs (s : State) (w : Word) : (s.pushCommand w).withInputs s.env.inputs = s := rfl

theorem step_pushCommand (s : State) (w : Word) : step (s.pushCommand w) = command w s := by
  have hnext : (s.pushCommand w).env.inputs = .regWrite .word s.params.eBase w :: s.env.inputs := rfl
  rw [step_of_input hnext, s.pushCommand_withInputs, runInput_writeCmd]

/-- Settles O6: the schedule is empty or has a first input; `withFetchWord` makes a write to CMD the first one. -/
theorem stepTakesNextInput : Obligations.StepTakesNextInput := by
  unfold Obligations.StepTakesNextInput
  refine fun s => ⟨step_of_no_input, fun _ _ => step_of_input, fun w x hop => ?command⟩
  rw [s.withFetchWord_word, step_pushCommand, command_of_op hop]

end Sys2Proof.Machine
